-- ==== Sys2Proof/Word.lean ====
section
/-! DEFINITION. The words the matcher computes with: control bytes, command words and bitmasks. An
address of the control-byte memory is a Nat: ADDR_WIDTH is a parameter and the spec's address sums never wrap
(20_memory.md R51, 41_bitmask_ops.md R119), so its bound is a check (`Instr.wf`, `State.inSpace`). -/

namespace Sys2Proof

/-- A control byte: one lane of a group (00_scope.md R15). -/
abbrev Byte := BitVec 8

/-- A command word CMD_WORD (30_encoding.md R65). -/
abbrev CmdWord := BitVec 16

/-- A carrier wide enough for the bitmask of every instance: BITMASK_BITS is 128 for HW and at most 8 for FB
(00_scope.md R8). An FB bitmask is held in the low bits (DESIGN CHOICE, log 10). -/
abbrev Bitmask := BitVec 128

end Sys2Proof
end

