-- ==== Sys2Proof/Config.lean ====
section
/-! DEFINITION. What one instance of the matcher fixes at elaboration (00_scope.md R8), and the free values. -/

namespace Sys2Proof

/-- FB's `WORD_BYTES`: a power of two, 4 or 8 (00_scope.md R8). -/
inductive WordBytes where
  | four
  | eight
  deriving DecidableEq, Repr

/-- `VARIANT`: HardwareGroup or FallbackGroup (00_scope.md R3). -/
inductive Variant where
  | hw
  | fb (wordBytes : WordBytes)
  deriving DecidableEq, Repr

/-- The elaboration parameters the spec leaves OPEN (00_scope.md R8): the model takes them as an argument, the field
`State.cfg`. The others (WIDTH, BITMASK_STRIDE, …) are computed from these in Machine/Params.lean. -/
structure Config where
  /-- `VARIANT`, with `WORD_BYTES` for FB. -/
  variant : Variant
  /-- `ALIGN_WIDTH`. -/
  alignWidth : Nat
  /-- `ADDR_WIDTH`, in bits. -/
  addrWidth : Nat
  /-- The `DELETED` control byte. -/
  deleted : Byte
  deriving DecidableEq, Repr

/-- The HW instance with R8's defaults: ALIGN_WIDTH = WIDTH, ADDR_WIDTH = 64, DELETED = 0x80. -/
def Config.hwDefault : Config :=
  { variant := .hw, alignWidth := 16, addrWidth := 64, deleted := 0x80#8 }

/-- The FB instance with R8's defaults: WORD_BYTES = 8 besides those of `Config.hwDefault`. -/
def Config.fbDefault : Config :=
  { variant := .fb .eight, alignWidth := 8, addrWidth := 64, deleted := 0x80#8 }

/-- FREE VALUE: what a LOAD reads for a byte the host writes during its window (20_memory.md R55), by draw
(DESIGN CHOICE, log 4). -/
opaque Config.racedByte : Nat → Byte

/-- FREE VALUE: the bits on output M_OUT while they are unspecified (10_state.md R36), by sample (log 13). -/
opaque Config.freeMOut : Nat → Bitmask

/-- FREE VALUE: the bits on output LANE_OUT while they are unspecified (10_state.md R36), by sample (log 13). -/
opaque Config.freeLaneOut : Nat → Nat

/-- FREE VALUE: the bits on output OUT_BYTES while they are unspecified (10_state.md R36), by sample (log 13). -/
opaque Config.freeOutBytes : Nat → Bitmask

/-- FREE VALUE: a one-bit output while it is unspecified (10_state.md R36), by port name and sample (log 13). -/
opaque Config.freeBit : String → Nat → Bool

/-- FREE VALUE: RSP_CODE while RSP_VALID = 0, by sample (log 13): 0, 1 or 2, as 3 is never driven (10_state.md R33). -/
opaque Config.freeRspCode : Nat → Fin 3

/-- FREE VALUE: MEM_REQ_ADDR while no byte read is requested (10_state.md R33), by sample (log 13). -/
opaque Config.freeMemReqAddr : Nat → Nat

/-- FREE VALUE: the order in which a LOAD issues its `count` byte reads, any order (20_memory.md R52), by observation
(log 9). -/
opaque Config.readOrder (n count : Nat) : Equiv.Perm (Fin count)

/-- FREE VALUE: STATUS_OUT[7:1], in place, while a command is in progress (10_state.md R36), by sample (log 13). -/
opaque Config.freeStatusOut : Nat → Byte

/-- FREE VALUE: FCMD_OUT while a command is in progress (10_state.md R36), by sample (log 13). -/
opaque Config.freeFcmdOut : Nat → CmdWord

/-- FREE VALUE: FADDR_OUT while a command is in progress (10_state.md R36), by sample (log 13). -/
opaque Config.freeFaddrOut : Nat → Nat

end Sys2Proof
end

