-- ==== Sys2Proof/Syntax.lean ====
section
/-! DEFINITION. The commands of the matcher, one constructor per row of spec/opcode_table.json (30_encoding.md R68). -/

namespace Sys2Proof

/-- A command: its opcode with the operands it reads (30_encoding.md R65 to R68). -/
inductive Instr where
  /-- `LOAD a`: a group from memory into G; `a` is the operand CMD_ADDR (40_group_ops.md R86). -/
  | load (a : Nat)
  /-- `MATCH_BYTE b`: the lanes equal to b; `b` is CMD_WORD[7:0] (40_group_ops.md R89). -/
  | matchByte (b : Byte)
  /-- `MATCH_EMPTY`: the EMPTY lanes (40_group_ops.md R91). -/
  | matchEmpty
  /-- `MATCH_EOD`: the empty-or-deleted lanes (40_group_ops.md R93). -/
  | matchEod
  /-- `MATCH_FULL`: the occupied lanes (40_group_ops.md R95). -/
  | matchFull
  /-- `CONVERT`: the group rewritten, into OUT (40_group_ops.md R97). -/
  | convert
  /-- `STATIC_EMPTY`: the all-empty group, into OUT (40_group_ops.md R99). -/
  | staticEmpty
  /-- `LOWEST`: the lowest matching lane of M (41_bitmask_ops.md R111). -/
  | lowest
  /-- `REMOVE_LOWEST`: M without its lowest lane (41_bitmask_ops.md R113). -/
  | removeLowest
  /-- `ANY`: whether any lane of M is set (41_bitmask_ops.md R115). -/
  | any
  deriving DecidableEq, Repr

end Sys2Proof
end

