-- ==== Sys2Proof/WellFormed.lean ====
section
/-! DEFINITION. Which commands fit the ports of an instance: the one check is the width of CMD_ADDR. -/

namespace Sys2Proof

/-- LOAD's operand fits the ADDR_WIDTH bits of CMD_ADDR (30_encoding.md R66, 20_memory.md R45). Every byte operand of
MATCH_BYTE is admitted (30_encoding.md R67), and the other commands have no operand. -/
def Instr.wf (c : Config) : Instr → Bool
  | .load a => decide (a < 2 ^ c.addrWidth)
  | .matchByte _ => true
  | .matchEmpty => true
  | .matchEod => true
  | .matchFull => true
  | .convert => true
  | .staticEmpty => true
  | .lowest => true
  | .removeLowest => true
  | .any => true

end Sys2Proof
end

