-- ==== Sys2Proof/Decode.lean ====
section
/-! DEFINITION. Decoding a command from CMD_WORD and CMD_ADDR (30_encoding.md R65 to R72), and the encoder (R74, R75). -/

namespace Sys2Proof

/-- Why a command word is illegal: the three cases of 30_encoding.md R69. -/
inductive DecodeError where
  /-- RSV is not 0. -/
  | reservedBits (rsv : BitVec 4)
  /-- OPC is 0x0 or 0xB to 0xF. -/
  | noSuchOpcode (opc : BitVec 4)
  /-- IMM8 is not 0 on a command other than MATCH_BYTE. -/
  | strayImmediate (imm : Byte)
  deriving DecidableEq, Repr

/-- Field RSV, bits [15:12] (30_encoding.md R65). -/
def rsvField (w : CmdWord) : BitVec 4 := w.extractLsb' 12 4

/-- Field OPC, bits [11:8] (30_encoding.md R65). -/
def opcField (w : CmdWord) : BitVec 4 := w.extractLsb' 8 4

/-- Field IMM8, bits [7:0] (30_encoding.md R65). -/
def immField (w : CmdWord) : Byte := w.extractLsb' 0 8

/-- A command without an immediate: IMM8 must be 0 (the last test of 30_encoding.md R72). -/
def decodePlain (w : CmdWord) (i : Instr) : Except DecodeError Instr :=
  if immField w = 0#8 then .ok i else .error (.strayImmediate (immField w))

/-- The decoder of 30_encoding.md R72. CMD_ADDR goes to LOAD alone (R66). -/
def decode (w : CmdWord) (addr : Nat) : Except DecodeError Instr :=
  if rsvField w ≠ 0#4 then .error (.reservedBits (rsvField w))
  else
    match (opcField w).toNat with
    | 0x1 => decodePlain w (.load addr)
    | 0x2 => .ok (.matchByte (immField w))
    | 0x3 => decodePlain w .matchEmpty
    | 0x4 => decodePlain w .matchEod
    | 0x5 => decodePlain w .matchFull
    | 0x6 => decodePlain w .convert
    | 0x7 => decodePlain w .staticEmpty
    | 0x8 => decodePlain w .lowest
    | 0x9 => decodePlain w .removeLowest
    | 0xA => decodePlain w .any
    | _ => .error (.noSuchOpcode (opcField w))

/-- The OPC of each command (30_encoding.md R68). -/
def Instr.opc : Instr → BitVec 4
  | .load _ => 0x1#4
  | .matchByte _ => 0x2#4
  | .matchEmpty => 0x3#4
  | .matchEod => 0x4#4
  | .matchFull => 0x5#4
  | .convert => 0x6#4
  | .staticEmpty => 0x7#4
  | .lowest => 0x8#4
  | .removeLowest => 0x9#4
  | .any => 0xA#4

/-- The IMM8 of each command: MATCH_BYTE's operand, else 0 (30_encoding.md R65, R67). -/
def Instr.imm : Instr → Byte
  | .matchByte b => b
  | .load _ => 0#8
  | .matchEmpty => 0#8
  | .matchEod => 0#8
  | .matchFull => 0#8
  | .convert => 0#8
  | .staticEmpty => 0#8
  | .lowest => 0#8
  | .removeLowest => 0#8
  | .any => 0#8

/-- The command word of a command: `OPC << 8`, with MATCH_BYTE's byte in the low bits (30_encoding.md R74). -/
def encodeWord (i : Instr) : CmdWord := ((i.opc.setWidth 16) <<< 8) ||| i.imm.setWidth 16

/-- What is driven on CMD_ADDR: LOAD's operand, 0 for every other command (30_encoding.md R75). -/
def encodeAddr : Instr → Nat
  | .load a => a
  | .matchByte _ => 0
  | .matchEmpty => 0
  | .matchEod => 0
  | .matchFull => 0
  | .convert => 0
  | .staticEmpty => 0
  | .lowest => 0
  | .removeLowest => 0
  | .any => 0

/-- The two words of a command: CMD_WORD and CMD_ADDR (30_encoding.md R71, R74, R75). -/
def encode (i : Instr) : CmdWord × Nat := (encodeWord i, encodeAddr i)

/-- CMD_WORD of a command numbered as spec/opcode_table.json numbers its bits: the low 16 bits. -/
def tableCmdWord (nbits w : Nat) : CmdWord := BitVec.ofNat 16 (w % 2 ^ nbits)

/-- CMD_ADDR of a command numbered as spec/opcode_table.json numbers its bits: the bits above CMD_WORD. -/
def tableCmdAddr (nbits w : Nat) : Nat := w % 2 ^ nbits / 2 ^ 16

/-- What the decoder reads from a command whose bits are `w` (bits above `nbits` zero). -/
def decodeTableWord (nbits w : Nat) : Option Instr :=
  (decode (tableCmdWord nbits w) (tableCmdAddr nbits w)).toOption

end Sys2Proof
end

