-- ==== Sys2Proof/Machine/Params.lean ====
section
/-! DEFINITION. The elaboration constants computed from an instance's parameters (00_scope.md R8 to R14). -/

namespace Sys2Proof

/-- The bytes of a word (00_scope.md R8, `WORD_BYTES`). -/
def WordBytes.count : WordBytes → Nat
  | .four => 4
  | .eight => 8

/-- `WIDTH`: lanes of a group (00_scope.md R8). -/
def Config.width (c : Config) : Nat :=
  match c.variant with
  | .hw => 16
  | .fb n => n.count

/-- `BITMASK_STRIDE`: bitmask bits per lane (00_scope.md R8). -/
def Config.stride (c : Config) : Nat :=
  match c.variant with
  | .hw => 8
  | .fb _ => 1

/-- `BITMASK_BITS` (00_scope.md R8). -/
def Config.bitmaskBits (c : Config) : Nat := c.width * c.stride

/-- `LANE_BITS` = log2 WIDTH, at least 1 (00_scope.md R8). -/
def Config.laneBits (c : Config) : Nat := max 1 (Nat.log2 c.width)

/-- The position of lane i's sentinel bit (00_scope.md R12). -/
def Config.sentinel (c : Config) (i : Nat) : Nat := i * c.stride + c.stride - 1

/-- The lane a set sentinel bit at position p belongs to (00_scope.md R13). -/
def Config.laneOfBit (c : Config) (p : Nat) : Nat := p / c.stride

/-- The lane encoder over the first `n` lanes: the OR of the sentinel bits of the lanes that satisfy `p`. -/
def Config.encLanes (c : Config) (p : Nat → Bool) : Nat → Bitmask
  | 0 => 0#128
  | n + 1 => c.encLanes p n ||| (if p n then 1#128 <<< c.sentinel n else 0#128)

/-- The lane encoder `enc(P)` (00_scope.md R12). -/
def Config.enc (c : Config) (p : Nat → Bool) : Bitmask := c.encLanes p c.width

/-- `BITMASK_MASK` = enc(all ones) (00_scope.md R8, R12). -/
def Config.bitmaskMask (c : Config) : Bitmask := c.enc (fun _ => true)

/-- The low BITMASK_BITS bits of the carrier. -/
def Config.bitmaskOnes (c : Config) : Bitmask := (1#128 <<< c.bitmaskBits) - 1#128

/-- A well-formed bitmask: `m & ~BITMASK_MASK = 0` (00_scope.md R14). -/
def Config.goodMask (c : Config) (m : Bitmask) : Bool := m &&& ~~~ c.bitmaskMask == 0

/-- The lanes set in a bitmask, in ascending order (00_scope.md R13). -/
def Config.lanesOf (c : Config) (m : Bitmask) : List Nat :=
  (List.range c.width).filter (fun i => m.getLsbD (c.sentinel i))

/-- `EMPTY`: all bits set (40_group_ops.md R83). -/
def emptyByte : Byte := 0xFF#8

/-- `FULL(h2)` (40_group_ops.md R82). -/
def fullByte (h2 : BitVec 7) : Byte := h2.setWidth 8

/-- A special byte: its top bit is 1 (40_group_ops.md R80). -/
def specialByte (b : Byte) : Bool := b.getLsbD 7

/-- A canonical control byte: EMPTY, DELETED, or top bit 0 (00_scope.md R15). -/
def Config.canonicalByte (c : Config) (b : Byte) : Bool :=
  b == emptyByte || b == c.deleted || !specialByte b

/-- The parameters are ones the spec admits (00_scope.md R8): ALIGN_WIDTH a power of two in [1, WIDTH], DELETED special
and not EMPTY. The spec bounds ADDR_WIDTH nowhere (log 19). -/
def Config.wf (c : Config) : Bool :=
  [1, 2, 4, 8, 16].contains c.alignWidth && decide (c.alignWidth ≤ c.width)
    && specialByte c.deleted && c.deleted != emptyByte

/-- `ctz(v)`: the index of the lowest set bit (00_scope.md R11); 0 where no bit is set, a value no rule uses. -/
def ctz (m : Bitmask) : Nat := ((List.range 128).find? (fun k => m.getLsbD k)).getD 0

/-- `popcount(v)`: the number of set bits (00_scope.md R11). -/
def popcount (m : Bitmask) : Nat := (List.range 128).countP (fun k => m.getLsbD k)

end Sys2Proof
end

