-- ==== Sys2Proof/Machine/State.lean ====
section
/-! DEFINITION. The state of one matcher instance, its host and its memory (10_state.md), and the state after reset. -/

namespace Sys2Proof.Machine

/-- RSP_CODE (10_state.md R35); the value 3 is never driven (R33). -/
inductive RspCode where
  | ok
  | fault
  | rejected
  deriving DecidableEq, Repr

/-- The causes of a fault the matcher takes (60_exceptions.md R126). Taking one is a next state, not an
`Outcome.fault`: see `State.raiseFault`. -/
inductive FaultCode where
  | illegal
  | misaligned
  | bus
  | noGroup
  | noMask
  deriving DecidableEq, Repr

/-- What the host does next (10_state.md R20, R33; 70_reset_and_hazards.md R165). -/
inductive HostEvent where
  /-- The host completes a write of byte `b` at `a`; the memory answers reads of `a` with it from then on. -/
  | store (a : Nat) (b : Byte)
  /-- The memory answers reads of `a` with an error from then on (20_memory.md R49). -/
  | unmap (a : Nat)
  /-- The host drives RST to a level (70_reset_and_hazards.md R150, R151). -/
  | rst (level : Bool)
  /-- The host presents CMD_WORD and CMD_ADDR with CMD_VALID = 1 (10_state.md R34). `during` holds the host's writes
  in the command's window (20_memory.md R55), in order; `abort` says that it asserts RST in that window
  (60_exceptions.md R131). -/
  | command (word : CmdWord) (addr : Nat) (during : List Host.Cell) (abort : Bool)
  deriving DecidableEq, Repr

/-- The state. The registers are those of 10_state.md R23 to R29, under the spec's names. -/
structure State where
  /-- The instance's parameters (00_scope.md R8); no step changes them (R10). -/
  cfg : Config
  /-- `G`, lane 0 first: WIDTH bytes (R23). -/
  g : List Byte
  /-- `G_VALID`. -/
  gValid : Bool
  /-- `M` (R24). -/
  m : Bitmask
  /-- `M_VALID`. -/
  mValid : Bool
  /-- `LANE`: a lane index (R25). -/
  lane : Nat
  /-- `LANE_SOME` (R25). -/
  laneSome : Bool
  /-- `LANE_VALID`. -/
  laneValid : Bool
  /-- `ANYF` (R26). -/
  anyf : Bool
  /-- `ANY_VALID`. -/
  anyValid : Bool
  /-- `OUT`, lane 0 first: WIDTH bytes (R27). -/
  out : List Byte
  /-- `OUT_VALID`. -/
  outValid : Bool
  /-- `STATUS`: FAULTED [0], FCODE [4:1], reserved [7:5] (R28). -/
  status : BitVec 8
  /-- `FCMD` (R29). -/
  fcmd : CmdWord
  /-- `FADDR` (R29). -/
  faddr : Nat
  /-- The busy condition: a command has been accepted and has not completed (R31, R34). -/
  busy : Bool
  /-- The level of input RST (R33). -/
  rst : Bool
  /-- `RSP_VALID` (R33, R34). -/
  rspValid : Bool
  /-- `RSP_CODE` (R33, R35). -/
  rspCode : RspCode
  /-- The MEM_REQ_ADDR values requested since the last command was accepted (20_memory.md R49, R52); the list's order is
  not the order of issue, which the spec leaves open (log 9). -/
  memReqs : List Nat
  /-- The control-byte memory, the host's (20_memory.md R45, R46): the readable addresses with their bytes, strictly
  rising; an unlisted address answers MEM_RSP_ERR = 1 (log 3). -/
  mem : List Host.Cell
  /-- The model's own: what the host does next (log 5). -/
  host : List HostEvent
  /-- The model's own: the host's writes inside the window of the command in progress (20_memory.md R55, log 4). -/
  window : List Host.Cell
  /-- The model's own: how many free bytes LOADs have drawn (log 4). -/
  draws : Nat
  deriving DecidableEq, Repr

/-- What stops the model with a fault. The matcher's own faults are no such stop (60_exceptions.md R127 gives their
entry). -/
inductive Fault where
  /-- Raised by `step` when the host names a memory address at or above 2^ADDR_WIDTH, which the spec says does not exist
  (20_memory.md R45). Safe: no next state is given. -/
  | outsideAddressSpace (a : Nat)
  deriving DecidableEq, Repr

/-- What the model refuses. -/
inductive Refusal where
  /-- An instruction without a meaning, by mnemonic: raised by no arm of `exec`. Safe. -/
  | notModelled (mnemonic : String)
  /-- Raised by `step` when the host's list holds a LOAD whose CMD_ADDR is wider than the port's ADDR_WIDTH bits
  (10_state.md R33): no host can present it. Safe: no next state is given. -/
  | cmdAddrTooWide (a : Nat)
  deriving DecidableEq, Repr

/-- The reset state of an instance (10_state.md R40), with RST released, nothing readable in memory and no host action
ahead. G, M, LANE, LANE_SOME, ANYF, OUT and RSP_CODE are unspecified in R40: the values here are the model's
(DESIGN CHOICE, log 2), behind valid bits that are 0. -/
def State.resetFor (c : Config) : State :=
  { cfg := c
    g := List.replicate c.width 0#8
    gValid := false
    m := 0#128
    mValid := false
    lane := 0
    laneSome := false
    laneValid := false
    anyf := false
    anyValid := false
    out := List.replicate c.width 0#8
    outValid := false
    status := 0x00#8
    fcmd := 0x0000#16
    faddr := 0
    busy := false
    rst := false
    rspValid := false
    rspCode := .ok
    memReqs := []
    mem := []
    host := []
    window := []
    draws := 0 }

/-- The machine right after reset: the HW instance with the default parameters (DESIGN CHOICE, log 1). -/
def State.reset : State := State.resetFor Config.hwDefault

end Sys2Proof.Machine
end

