-- ==== Sys2Proof/Machine/Ops.lean ====
section
/-! DEFINITION. The shared operations: memory, the read channel, command completion, taking a fault, the fault state,
reset, and the host's actions. -/

namespace Sys2Proof.Machine

/-! ## The control-byte memory -/

/-- The byte an address holds; `none` where the memory would answer an error (20_memory.md R49, log 3). -/
def Memory.lookup : List Host.Cell → Nat → Option Byte
  | [], _ => none
  | (x, b) :: rest, a => if x = a then some b else Memory.lookup rest a

/-- A completed write of one byte. -/
def Memory.store : List Host.Cell → Nat → Byte → List Host.Cell
  | [], a, b => [(a, b)]
  | (x, c) :: rest, a, b =>
    if a < x then (a, b) :: (x, c) :: rest
    else if a = x then (a, b) :: rest
    else (x, c) :: Memory.store rest a b

/-- An address that is readable no longer. -/
def Memory.erase : List Host.Cell → Nat → List Host.Cell
  | [], _ => []
  | (x, c) :: rest, a => if x = a then Memory.erase rest a else (x, c) :: Memory.erase rest a

/-- Writes in the order the host made them. -/
def Memory.storeAll (mem : List Host.Cell) (ws : List Host.Cell) : List Host.Cell :=
  ws.foldl (fun acc w => Memory.store acc w.1 w.2) mem

/-- The canonical form: addresses strictly rising. An unlisted address holds no byte, so no entry can equal what an
unlisted address reads as. -/
def Memory.wf : List Host.Cell → Bool
  | [] => true
  | (x, _) :: rest => rest.all (fun cell => decide (x < cell.1)) && Memory.wf rest

/-- Some write in the window of the command in progress is to `a` (20_memory.md R55). -/
def State.raced (s : State) (a : Nat) : Bool := s.window.any (fun w => w.1 == a)

/-- `MemRead(a, 1)` (20_memory.md R49): `some byte` is ok = 1, `none` is ok = 0. A byte that the host writes in the
window reads as any value, the free value numbered `draw` (20_memory.md R55, log 4). -/
def State.memRead (s : State) (draw : Nat) (a : Nat) : Option Byte :=
  if s.raced a then some (Config.racedByte draw) else Memory.lookup s.mem a

/-! ## STATUS -/

/-- STATUS.FAULTED, bit 0 (10_state.md R28). -/
def State.faulted (s : State) : Bool := s.status.getLsbD 0

/-- STATUS.FCODE, bits [4:1] (10_state.md R28). -/
def State.fcode (s : State) : BitVec 4 := s.status.extractLsb' 1 4

/-- The value of FCODE for each cause (60_exceptions.md R126). -/
def FaultCode.code : FaultCode → BitVec 4
  | .illegal => 1
  | .misaligned => 2
  | .bus => 3
  | .noGroup => 4
  | .noMask => 5

/-- STATUS with FAULTED = 1 and FCODE = the cause's code; the reserved bits are 0 (10_state.md R28). -/
def FaultCode.status (f : FaultCode) : BitVec 8 := (f.code.setWidth 8 <<< 1) ||| 1#8

/-- The value of RSP_CODE (10_state.md R33, R35). -/
def RspCode.code : RspCode → BitVec 2
  | .ok => 0
  | .fault => 1
  | .rejected => 2

/-! ## Acceptance and completion -/

/-- CMD_READY: 0 while RST is asserted and from acceptance to completion (10_state.md R34). -/
def State.cmdReady (s : State) : Bool := !s.rst && !s.busy

/-- A command is accepted, with the host's writes `during` in its window (10_state.md R34, 20_memory.md R55). -/
def State.accept (s : State) (during : List Host.Cell) : State :=
  { s with busy := true, rspValid := false, memReqs := [], window := during }

/-- A command completes: RSP_VALID = 1 with its RSP_CODE (10_state.md R34, R35). -/
def State.complete (s : State) (r : RspCode) : State :=
  { s with busy := false, rspValid := true, rspCode := r }

/-- `raise Fault(code, faddr)` (60_exceptions.md R127), by the command whose CMD_WORD is `word`. -/
def State.raiseFault (s : State) (f : FaultCode) (word : CmdWord) (faddr : Nat) : State :=
  State.complete { s with status := f.status, fcmd := word, faddr := faddr } .fault

/-- A command accepted in the fault state: REJECTED, no other effect (60_exceptions.md R129). -/
def State.reject (s : State) : State := s.complete .rejected

/-- The first check of 60_exceptions.md R130: in the fault state a command is REJECTED, else it does `k`. -/
def State.unlessFaulted (s : State) (k : State) : State := if s.faulted then s.reject else k

/-- `require_group()` of 40_group_ops.md R85, for the command whose CMD_WORD is `word`. -/
def State.requireGroup (s : State) (word : CmdWord) (k : State) : State :=
  if s.gValid then k else s.raiseFault .noGroup word 0

/-- `require_mask()` of 41_bitmask_ops.md R110, for the command whose CMD_WORD is `word`. -/
def State.requireMask (s : State) (word : CmdWord) (k : State) : State :=
  if s.mValid then k else s.raiseFault .noMask word 0

/-- An illegal word: fault ILLEGAL, unless the matcher is in the fault state (30_encoding.md R69, 60_exceptions.md
R130). -/
def State.illegalCommand (s : State) (word : CmdWord) : State :=
  s.unlessFaulted (s.raiseFault .illegal word 0)

/-- After a command: the writes made in its window have completed, and the window is over (20_memory.md R55, R56). -/
def State.closeWindow (s : State) : State :=
  { s with mem := Memory.storeAll s.mem s.window, window := [] }

/-! ## Register writes, one per destination of 10_state.md R37 -/

/-- M <- m, M_VALID <- 1. -/
def State.writeM (s : State) (m : Bitmask) : State := { s with m := m, mValid := true }

/-- OUT <- bytes, OUT_VALID <- 1. -/
def State.writeOut (s : State) (bytes : List Byte) : State := { s with out := bytes, outValid := true }

/-- LANE_SOME <- some, LANE <- lane, LANE_VALID <- 1. -/
def State.writeLane (s : State) (isSome : Bool) (lane : Nat) : State :=
  { s with laneSome := isSome, lane := lane, laneValid := true }

/-- ANYF <- b, ANY_VALID <- 1. -/
def State.writeAny (s : State) (b : Bool) : State := { s with anyf := b, anyValid := true }

/-! ## Reset and the host's actions -/

/-- RST is asserted (70_reset_and_hazards.md R150, 60_exceptions.md R131): every register takes its reset value. The
parameters, the memory and the model's own fields are no registers of the matcher. -/
def State.assertRst (s : State) : State :=
  { State.resetFor s.cfg with rst := true, mem := s.mem, host := s.host, window := s.window, draws := s.draws }

/-- RST is released (70_reset_and_hazards.md R151). -/
def State.releaseRst (s : State) : State := { s with rst := false }

/-- The host drives RST to a level. -/
def State.driveRst (s : State) (level : Bool) : State := if level then s.assertRst else s.releaseRst

/-- An address of the control-byte memory (20_memory.md R45). -/
def State.inSpace (s : State) (a : Nat) : Bool := decide (a < 2 ^ s.cfg.addrWidth)

/-- The first address of a list of writes that is outside the address space. -/
def State.firstOutside (s : State) (ws : List Host.Cell) : Option Nat :=
  (ws.find? (fun w => !s.inSpace w.1)).map (·.1)

/-- The host writes a byte; an address outside the space faults (20_memory.md R45, R56). -/
def State.hostStore (s : State) (a : Nat) (b : Byte) : Host.Outcome State Fault Refusal :=
  if s.inSpace a then .next { s with mem := Memory.store s.mem a b } else .fault (.outsideAddressSpace a)

/-- An address becomes unreadable; an address outside the space faults (20_memory.md R45, R49). -/
def State.hostUnmap (s : State) (a : Nat) : Host.Outcome State Fault Refusal :=
  if s.inSpace a then .next { s with mem := Memory.erase s.mem a } else .fault (.outsideAddressSpace a)

/-- A command presented while CMD_READY = 0 is not accepted (10_state.md R34): only what the host does in that time
happens (log 7). -/
def State.notAccepted (s : State) (during : List Host.Cell) (abort : Bool) : State :=
  let t : State := { s with mem := Memory.storeAll s.mem during }
  if abort then t.assertRst else t

/-- An accepted command in whose window RST is asserted: abandoned, no RSP_VALID, the reset state (60_exceptions.md
R131). The host's writes in the window complete. -/
def State.abandon (s : State) (during : List Host.Cell) : State :=
  (s.accept during).closeWindow.assertRst

/-- Outcomes are carried on through a following operation. -/
def andThen (o : Host.Outcome State Fault Refusal) (f : State → State) : Host.Outcome State Fault Refusal :=
  match o with
  | .next t => .next (f t)
  | .fault r => .fault r
  | .refused r => .refused r

end Sys2Proof.Machine
end

