-- ==== Sys2Proof/Machine/Flags.lean ====
section
/-! DEFINITION. The two flags of the matcher, LANE_SOME and ANYF, and LANE beside the first (10_state.md R38). -/

namespace Sys2Proof.Machine

/-- LANE_SOME after LOWEST (41_bitmask_ops.md R111). -/
def laneSomeFlag (m : Bitmask) : Bool := m != 0#128

/-- LANE after LOWEST: a lane index, 0 for "none" (41_bitmask_ops.md R111). -/
def lowestLane (c : Config) (m : Bitmask) : Nat := if m = 0#128 then 0 else c.laneOfBit (ctz m)

/-- ANYF after ANY (41_bitmask_ops.md R115). -/
def anyFlag (m : Bitmask) : Bool := m != 0#128

/-- M after REMOVE_LOWEST: `M & (M - 1)`, the subtraction modulo 2^BITMASK_BITS (41_bitmask_ops.md R113). -/
def dropLowest (c : Config) (m : Bitmask) : Bitmask := m &&& ((m - 1#128) &&& c.bitmaskOnes)

end Sys2Proof.Machine
end

