-- ==== Sys2Proof/Machine/Bitmask.lean ====
section
/-! DEFINITION. The meanings of the bitmask commands (41_bitmask_ops.md). -/

namespace Sys2Proof.Machine

/-- `LOWEST` (41_bitmask_ops.md R111). -/
def execLowest (s : State) : Host.Outcome State Fault Refusal :=
  .next (s.unlessFaulted (s.requireMask (encodeWord .lowest)
    ((s.writeLane (laneSomeFlag s.m) (lowestLane s.cfg s.m)).complete .ok)))

/-- `REMOVE_LOWEST` (41_bitmask_ops.md R113). -/
def execRemoveLowest (s : State) : Host.Outcome State Fault Refusal :=
  .next (s.unlessFaulted (s.requireMask (encodeWord .removeLowest)
    ((s.writeM (dropLowest s.cfg s.m)).complete .ok)))

/-- `ANY` (41_bitmask_ops.md R115). -/
def execAny (s : State) : Host.Outcome State Fault Refusal :=
  .next (s.unlessFaulted (s.requireMask (encodeWord .any) ((s.writeAny (anyFlag s.m)).complete .ok)))

end Sys2Proof.Machine
end

