-- ==== Sys2Proof/Machine/Operands.lean ====
section
/-! DEFINITION. LOAD's address operand and the lanes a command reads (40_group_ops.md R85, R86). MATCH_BYTE's operand is
the byte in the instruction, used as it stands (30_encoding.md R67). -/

namespace Sys2Proof.Machine

/-- `a mod ALIGN_WIDTH ≠ 0` (20_memory.md R50). -/
def State.misaligned (s : State) (a : Nat) : Bool := a % s.cfg.alignWidth != 0

/-- `a + WIDTH > 2^ADDR_WIDTH` (20_memory.md R51). -/
def State.pastTop (s : State) (a : Nat) : Bool := decide (2 ^ s.cfg.addrWidth < a + s.cfg.width)

/-- The addresses of a group, lane 0 first (20_memory.md R47, R52). -/
def State.groupAddrs (s : State) (a : Nat) : List Nat := (List.range s.cfg.width).map (fun i => a + i)

/-- The memory's answer for lane i of a group at `a` (20_memory.md R47, R49, R52). -/
def State.laneAnswer (s : State) (a : Nat) (i : Nat) : Option Byte := s.memRead (s.draws + i) (a + i)

/-- Every lane of the group at `a` answers ok = 1 (40_group_ops.md R86). -/
def State.groupReadable (s : State) (a : Nat) : Bool :=
  (List.range s.cfg.width).all (fun i => (s.laneAnswer a i).isSome)

/-- The bytes of a group all of whose lanes answer ok = 1, lane 0 first. -/
def State.groupBytes (s : State) (a : Nat) : List Byte :=
  (List.range s.cfg.width).map (fun i => (s.laneAnswer a i).getD 0#8)

/-- The reads of a group are requested, each once (20_memory.md R52). -/
def State.requestGroup (s : State) (a : Nat) : State := { s with memReqs := s.groupAddrs a }

/-- G <- the group's bytes, G_VALID <- 1; its draws are used up (40_group_ops.md R86, log 4). -/
def State.fillGroup (s : State) (bytes : List Byte) : State :=
  { s with g := bytes, gValid := true, draws := s.draws + s.cfg.width }

/-- `G[i]` (10_state.md R23). -/
def State.gLane (s : State) (i : Nat) : Byte := s.g.getD i 0#8

/-- `OUT[i]` (10_state.md R27). -/
def State.outLane (s : State) (i : Nat) : Byte := s.out.getD i 0#8

/-- The lane predicate `eq(b)` (40_group_ops.md R85). -/
def State.eqLane (s : State) (b : Byte) (i : Nat) : Bool := s.gLane i == b

/-- The lane predicate `special` (40_group_ops.md R85). -/
def State.specialLane (s : State) (i : Nat) : Bool := specialByte (s.gLane i)

end Sys2Proof.Machine
end

