-- ==== Sys2Proof/Machine/Group.lean ====
section
/-! DEFINITION. The meanings of the group commands (40_group_ops.md). -/

namespace Sys2Proof.Machine

/-- A match: M <- enc(p) under `require_group()`, the template of 40_group_ops.md R89, R91, R93 and R95. -/
def State.matchLanes (s : State) (word : CmdWord) (p : Nat → Bool) : State :=
  s.unlessFaulted (s.requireGroup word ((s.writeM (s.cfg.enc p)).complete .ok))

/-- `LOAD a` (40_group_ops.md R86, R87), in the order of checks of 60_exceptions.md R130. -/
def execLoad (a : Nat) (s : State) : Host.Outcome State Fault Refusal :=
  .next (s.unlessFaulted (
    if s.misaligned a then s.raiseFault .misaligned (encodeWord (.load a)) a
    else if s.pastTop a then s.raiseFault .bus (encodeWord (.load a)) a
    else if s.groupReadable a then ((s.requestGroup a).fillGroup (s.groupBytes a)).complete .ok
    else (s.requestGroup a).raiseFault .bus (encodeWord (.load a)) a))

/-- `MATCH_BYTE b` (40_group_ops.md R89). -/
def execMatchByte (b : Byte) (s : State) : Host.Outcome State Fault Refusal :=
  .next (s.matchLanes (encodeWord (.matchByte b)) (s.eqLane b))

/-- `MATCH_EMPTY` (40_group_ops.md R91). -/
def execMatchEmpty (s : State) : Host.Outcome State Fault Refusal :=
  .next (s.matchLanes (encodeWord .matchEmpty) (s.eqLane emptyByte))

/-- `MATCH_EOD`: bit 7 alone, so a non-canonical byte matches (40_group_ops.md R93, R81). -/
def execMatchEod (s : State) : Host.Outcome State Fault Refusal :=
  .next (s.matchLanes (encodeWord .matchEod) s.specialLane)

/-- `MATCH_FULL`: the lanes that are not special, only sentinel bits set (40_group_ops.md R95). -/
def execMatchFull (s : State) : Host.Outcome State Fault Refusal :=
  .next (s.matchLanes (encodeWord .matchFull) (fun i => !s.specialLane i))

/-- The byte CONVERT writes for a lane (40_group_ops.md R97). -/
def State.convertLane (s : State) (i : Nat) : Byte := if s.specialLane i then emptyByte else s.cfg.deleted

/-- `CONVERT` (40_group_ops.md R97). -/
def execConvert (s : State) : Host.Outcome State Fault Refusal :=
  .next (s.unlessFaulted (s.requireGroup (encodeWord .convert)
    ((s.writeOut ((List.range s.cfg.width).map s.convertLane)).complete .ok)))

/-- `STATIC_EMPTY` (40_group_ops.md R99). -/
def execStaticEmpty (s : State) : Host.Outcome State Fault Refusal :=
  .next (s.unlessFaulted ((s.writeOut ((List.range s.cfg.width).map (fun _ => emptyByte))).complete .ok))

end Sys2Proof.Machine
end

