-- ==== Sys2Proof/Machine/Dispatch.lean ====
section
/-! DEFINITION. One arm per command: the call of its meaning. -/

namespace Sys2Proof.Machine

def exec (i : Instr) (s : State) : Host.Outcome State Fault Refusal :=
  match i with
  | .load a => Sys2Proof.Machine.execLoad a s
  | .matchByte b => Sys2Proof.Machine.execMatchByte b s
  | .matchEmpty => Sys2Proof.Machine.execMatchEmpty s
  | .matchEod => Sys2Proof.Machine.execMatchEod s
  | .matchFull => Sys2Proof.Machine.execMatchFull s
  | .convert => Sys2Proof.Machine.execConvert s
  | .staticEmpty => Sys2Proof.Machine.execStaticEmpty s
  | .lowest => Sys2Proof.Machine.execLowest s
  | .removeLowest => Sys2Proof.Machine.execRemoveLowest s
  | .any => Sys2Proof.Machine.execAny s

end Sys2Proof.Machine
end

