-- ==== Sys2Proof/Machine/Step.lean ====
section
/-! DEFINITION. One step of the machine: the matcher takes the host's next action (10_state.md R20, R21, R34). -/

namespace Sys2Proof.Machine

/-- An accepted command runs: decoded, executed, its window closed (30_encoding.md R72, 10_state.md R34). -/
def runCommand (word : CmdWord) (addr : Nat) (during : List Host.Cell) (s : State) :
    Host.Outcome State Fault Refusal :=
  match decode word addr with
  | .error _ => .next ((s.accept during).illegalCommand word).closeWindow
  | .ok i =>
    if i.wf s.cfg then andThen (exec i (s.accept during)) State.closeWindow
    else .refused (.cmdAddrTooWide addr)

/-- The host presents a command (10_state.md R34, 60_exceptions.md R131). -/
def presentCommand (word : CmdWord) (addr : Nat) (during : List Host.Cell) (abort : Bool) (s : State) :
    Host.Outcome State Fault Refusal :=
  match s.firstOutside during with
  | some a => .fault (.outsideAddressSpace a)
  | none =>
    if !s.cmdReady then .next (s.notAccepted during abort)
    else if abort then .next (s.abandon during)
    else runCommand word addr during s

/-- One step: the host's next action, if it has one; else the matcher is idle and holds its registers
(10_state.md R20, 60_exceptions.md R141). -/
def step (s : State) : Host.Outcome State Fault Refusal :=
  match s.host with
  | [] => .next s
  | .store a b :: rest => { s with host := rest }.hostStore a b
  | .unmap a :: rest => { s with host := rest }.hostUnmap a
  | .rst level :: rest => .next ({ s with host := rest }.driveRst level)
  | .command word addr during abort :: rest => presentCommand word addr during abort { s with host := rest }

/-- `s` with a command as the host's very next action and the matcher ready for it (log 6). -/
def State.withFetchWord (s : State) (nbits w : Nat) : State :=
  { s with
    rst := false
    busy := false
    host := .command (tableCmdWord nbits w) (tableCmdAddr nbits w) [] false :: s.host }

end Sys2Proof.Machine
end

