-- ==== Sys2Proof/Machine/Assembler.lean ====
section
/-! DEFINITION. The spec's assembly text and its pseudo-instructions (30_encoding.md R73 to R77). The text is a list of
characters, one line at a time. -/

namespace Sys2Proof.Machine

/-- A line of assembly: a command, or one of the pseudo-instructions of 30_encoding.md R76 and R77. -/
inductive Asm where
  | core (i : Instr)
  | matchDeleted
  | matchH2 (h : Nat)
  | nextLane
  deriving DecidableEq, Repr

/-- Assembly errors (30_encoding.md R73, R77). -/
inductive AsmError where
  | unknownMnemonic
  | badOperandCount
  | badNumber
  | byteOutOfRange (n : Nat)
  | h2OutOfRange (n : Nat)
  | addressOutOfRange (n : Nat)
  deriving DecidableEq, Repr

/-- The commands a line expands to (30_encoding.md R76, R77). -/
def Asm.expand (c : Config) : Asm → Except AsmError (List Instr)
  | .core i => .ok [i]
  | .matchDeleted => .ok [.matchByte c.deleted]
  | .matchH2 h => if h ≤ 0x7F then .ok [.matchByte (BitVec.ofNat 8 h)] else .error (.h2OutOfRange h)
  | .nextLane => .ok [.lowest, .removeLowest]

/-- The words of a line (30_encoding.md R74, R75). -/
def Asm.words (c : Config) (a : Asm) : Except AsmError (List (CmdWord × Nat)) :=
  match a.expand c with
  | .ok is => .ok (is.map encode)
  | .error e => .error e

/-- A space or tab (log 20). -/
def isBlankChar (ch : Char) : Bool := ch == ' ' || ch == '\t'

/-- The text before a comment: a `;` begins one (30_encoding.md R73). -/
def dropComment (line : List Char) : List Char := line.takeWhile (fun ch => ch != ';')

/-- The blank-separated words of a line; `cur` is the word being read, in order. -/
def splitWords : List Char → List Char → List (List Char)
  | [], cur => if cur.isEmpty then [] else [cur]
  | ch :: rest, cur =>
    if isBlankChar ch then
      if cur.isEmpty then splitWords rest [] else cur :: splitWords rest []
    else splitWords rest (cur ++ [ch])

/-- The value of a hexadecimal digit. -/
def hexDigit (ch : Char) : Option Nat :=
  let n := ch.toNat
  if 48 ≤ n && n ≤ 57 then some (n - 48)
  else if 65 ≤ n && n ≤ 70 then some (n - 55)
  else if 97 ≤ n && n ≤ 102 then some (n - 87)
  else none

/-- Digits in a base, most significant first, after the value `acc`. -/
def readDigits (base : Nat) : List Char → Nat → Option Nat
  | [], acc => some acc
  | ch :: rest, acc =>
    match hexDigit ch with
    | some d => if d < base then readDigits base rest (acc * base + d) else none
    | none => none

/-- A number, hexadecimal with `0x` or decimal (30_encoding.md R73). -/
def readNumber : List Char → Option Nat
  | [] => none
  | ['0', 'x'] => none
  | '0' :: 'x' :: digits => readDigits 16 digits 0
  | digits => readDigits 10 digits 0

/-- MATCH_BYTE's operand: a number from 0 to 255, or the names EMPTY and DELETED (30_encoding.md R73). -/
def readByte (c : Config) (word : List Char) : Except AsmError Byte :=
  if word = ['E', 'M', 'P', 'T', 'Y'] then .ok emptyByte
  else if word = ['D', 'E', 'L', 'E', 'T', 'E', 'D'] then .ok c.deleted
  else
    match readNumber word with
    | some n => if n ≤ 255 then .ok (BitVec.ofNat 8 n) else .error (.byteOutOfRange n)
    | none => .error .badNumber

/-- LOAD's operand: a number that fits CMD_ADDR (30_encoding.md R66, R73). -/
def readAddr (c : Config) (word : List Char) : Except AsmError Nat :=
  match readNumber word with
  | some n => if n < 2 ^ c.addrWidth then .ok n else .error (.addressOutOfRange n)
  | none => .error .badNumber

/-- The mnemonics without an operand (30_encoding.md R68, R76, R77). -/
def plainMnemonics : List (List Char × Asm) :=
  [ (['M', 'A', 'T', 'C', 'H', '_', 'E', 'M', 'P', 'T', 'Y'], .core .matchEmpty),
    (['M', 'A', 'T', 'C', 'H', '_', 'E', 'O', 'D'], .core .matchEod),
    (['M', 'A', 'T', 'C', 'H', '_', 'F', 'U', 'L', 'L'], .core .matchFull),
    (['C', 'O', 'N', 'V', 'E', 'R', 'T'], .core .convert),
    (['S', 'T', 'A', 'T', 'I', 'C', '_', 'E', 'M', 'P', 'T', 'Y'], .core .staticEmpty),
    (['L', 'O', 'W', 'E', 'S', 'T'], .core .lowest),
    (['R', 'E', 'M', 'O', 'V', 'E', '_', 'L', 'O', 'W', 'E', 'S', 'T'], .core .removeLowest),
    (['A', 'N', 'Y'], .core .any),
    (['M', 'A', 'T', 'C', 'H', '_', 'D', 'E', 'L', 'E', 'T', 'E', 'D'], .matchDeleted),
    (['N', 'E', 'X', 'T'], .nextLane) ]

/-- A line with one operand. -/
def readOperandLine (c : Config) (mnemonic operand : List Char) : Except AsmError Asm :=
  if mnemonic = ['L', 'O', 'A', 'D'] then (readAddr c operand).map (fun a => .core (.load a))
  else if mnemonic = ['M', 'A', 'T', 'C', 'H', '_', 'B', 'Y', 'T', 'E'] then
    (readByte c operand).map (fun b => .core (.matchByte b))
  else if mnemonic = ['M', 'A', 'T', 'C', 'H', '_', 'H', '2'] then
    match readNumber operand with
    | some n => .ok (.matchH2 n)
    | none => .error .badNumber
  else if (plainMnemonics.lookup mnemonic).isSome then .error .badOperandCount
  else .error .unknownMnemonic

/-- A line of assembly text (30_encoding.md R73); `none` for a line without a command. -/
def readLine (c : Config) (line : List Char) : Except AsmError (Option Asm) :=
  match splitWords (dropComment line) [] with
  | [] => .ok none
  | [mnemonic] =>
    match plainMnemonics.lookup mnemonic with
    | some a => .ok (some a)
    | none =>
      if mnemonic = ['L', 'O', 'A', 'D'] ∨ mnemonic = ['M', 'A', 'T', 'C', 'H', '_', 'B', 'Y', 'T', 'E']
          ∨ mnemonic = ['M', 'A', 'T', 'C', 'H', '_', 'H', '2']
      then .error .badOperandCount else .error .unknownMnemonic
  | [mnemonic, operand] => (readOperandLine c mnemonic operand).map some
  | _ :: _ :: _ :: _ => .error .badOperandCount

/-- The words of a line of text: the assembler (30_encoding.md R73 to R77). -/
def assembleLine (c : Config) (line : List Char) : Except AsmError (List (CmdWord × Nat)) :=
  match readLine c line with
  | .ok none => .ok []
  | .ok (some a) => a.words c
  | .error e => .error e

end Sys2Proof.Machine
end

