-- ==== Sys2Proof/Machine/Iterate.lean ====
section
/-! DEFINITION. The host's iteration over a bitmask, commands only (41_bitmask_ops.md R117; pseudo-instruction NEXT,
30_encoding.md R77). -/

namespace Sys2Proof.Machine

/-- One round of R117: LOWEST; where LANE_SOME = 1, the lane reported and the state after REMOVE_LOWEST. -/
def nextLane (s : State) : Option (Nat × State) :=
  match exec .lowest s with
  | .next t =>
    if t.laneSome then
      match exec .removeLowest t with
      | .next u => some (t.lane, u)
      | _ => none
    else none
  | _ => none

/-- The lanes R117's loop consumes, in order, for at most `fuel` rounds. -/
def iterateLanes : Nat → State → List Nat
  | 0, _ => []
  | fuel + 1, s =>
    match nextLane s with
    | some (lane, t) => lane :: iterateLanes fuel t
    | none => []

end Sys2Proof.Machine
end

