-- ==== Sys2Proof/Machine/Outputs.lean ====
section
/-! DEFINITION. What the host sees on the output ports (10_state.md R32, R33, R36). -/

namespace Sys2Proof.Machine

/-- The output ports of 10_state.md R33 but for CFG_*, which are `Ports.Cfg`. -/
structure Ports where
  cmdReady : Bool
  rspValid : Bool
  rspCode : BitVec 2
  memReqValid : Bool
  memReqAddr : Nat
  mOut : Bitmask
  mValid : Bool
  laneOut : Nat
  laneSomeOut : Bool
  laneValid : Bool
  anyOut : Bool
  anyValid : Bool
  outBytes : Bitmask
  outValid : Bool
  statusOut : BitVec 8
  fcmdOut : CmdWord
  faddrOut : Nat
  deriving DecidableEq, Repr

/-- The two outputs of the read channel, as the memory sees them (10_state.md R33). -/
structure MemPorts where
  memReqValid : Bool
  memReqAddr : Nat
  deriving DecidableEq, Repr

/-- The configuration outputs of 10_state.md R32. -/
structure CfgPorts where
  cfgVariant : BitVec 1
  cfgWidth : BitVec 16
  cfgAlignWidth : BitVec 16
  cfgBitmaskStride : BitVec 8
  cfgBitmaskMask : Bitmask
  cfgEmpty : Byte
  cfgDeleted : Byte
  deriving DecidableEq, Repr

end Sys2Proof.Machine

namespace Sys2Proof

/-- CFG_VARIANT: 0 = HW, 1 = FB (10_state.md R32). -/
def Variant.code : Variant → BitVec 1
  | .hw => 0
  | .fb _ => 1

/-- The configuration outputs: constants of the instance (10_state.md R32). -/
def Config.ports (c : Config) : Machine.CfgPorts :=
  { cfgVariant := c.variant.code
    cfgWidth := BitVec.ofNat 16 c.width
    cfgAlignWidth := BitVec.ofNat 16 c.alignWidth
    cfgBitmaskStride := BitVec.ofNat 8 c.stride
    cfgBitmaskMask := c.bitmaskMask
    cfgEmpty := emptyByte
    cfgDeleted := c.deleted }

end Sys2Proof

namespace Sys2Proof.Machine

/-- The packing of bytes: byte i in bits [8i+7:8i] (10_state.md R23, R27). -/
def packBytes : List Byte → Bitmask
  | [] => 0#128
  | b :: rest => (packBytes rest <<< 8) ||| b.setWidth 128

/-- The low `n` bits of a value on a port. -/
def lowBits (n : Nat) (v : Bitmask) : Bitmask := v &&& ((1#128 <<< n) - 1#128)

/-- MEM_REQ_ADDR while no byte read is requested: a free value of ADDR_WIDTH bits (10_state.md R33, log 13). -/
def State.idleMemReqAddr (s : State) (n : Nat) : Nat := Config.freeMemReqAddr n % 2 ^ s.cfg.addrWidth

/-- What the memory sees on MEM_REQ_VALID and MEM_REQ_ADDR at beat `k` of the command accepted last: the reads it
requests, each once (20_memory.md R49, R52), in the free order of observation `n` (log 9), and after them none. -/
def State.memRequest (s : State) (n k : Nat) : MemPorts :=
  if h : k < s.memReqs.length then
    { memReqValid := true, memReqAddr := s.memReqs[Config.readOrder n s.memReqs.length ⟨k, h⟩] }
  else { memReqValid := false, memReqAddr := s.idleMemReqAddr n }

/-- The output ports at the host's sample number `n` (10_state.md R33, R36). A data output whose valid bit is 0, RSP_CODE
without RSP_VALID, and every output but STATUS_OUT[0] (60_exceptions.md R134) while a command is in progress are
unspecified: free values, one for each sample (log 13). MEM_REQ_VALID is 0 between commands (20_memory.md R56); what the
memory sees of the read channel in a command is `State.memRequest`. -/
def State.ports (s : State) (n : Nat) : Ports :=
  let bit (port : String) (b : Bool) : Bool := if s.busy then Config.freeBit port n else b
  { cmdReady := s.cmdReady
    rspValid := s.rspValid
    rspCode := if s.rspValid then s.rspCode.code else BitVec.ofNat 2 (Config.freeRspCode n).val
    memReqValid := bit "MEM_REQ_VALID" false
    memReqAddr := s.idleMemReqAddr n
    mOut := if s.mValid && !s.busy then s.m else lowBits s.cfg.bitmaskBits (Config.freeMOut n)
    mValid := bit "M_VALID" s.mValid
    laneOut := if s.laneValid && !s.busy then s.lane else Config.freeLaneOut n % 2 ^ s.cfg.laneBits
    laneSomeOut := if s.laneValid && !s.busy then s.laneSome else Config.freeBit "LANE_SOME_OUT" n
    laneValid := bit "LANE_VALID" s.laneValid
    anyOut := if s.anyValid && !s.busy then s.anyf else Config.freeBit "ANY_OUT" n
    anyValid := bit "ANY_VALID" s.anyValid
    outBytes :=
      if s.outValid && !s.busy then packBytes s.out else lowBits (8 * s.cfg.width) (Config.freeOutBytes n)
    outValid := bit "OUT_VALID" s.outValid
    statusOut := if s.busy then (Config.freeStatusOut n &&& 0xFE#8) ||| (s.status &&& 1#8) else s.status
    fcmdOut := if s.busy then Config.freeFcmdOut n else s.fcmd
    faddrOut := if s.busy then Config.freeFaddrOut n % 2 ^ s.cfg.addrWidth else s.faddr }

end Sys2Proof.Machine
end

