-- ==== Sys2Proof/Safety.lean ====
section
/-! DEFINITION. The terms claims use: the machine's invariant, runs that are never a successful end, what an output can
show, and the host's duties. -/

namespace Sys2Proof.Machine

/-- STATUS, FCMD and FADDR are what reset or one fault entry leaves (10_state.md R28, R29; 60_exceptions.md R126, R127):
all 0, or the record of one of the five causes with FADDR 0 but for MISALIGNED and BUS. -/
def State.faultRecordOk (s : State) : Bool :=
  (s.status == 0x00#8 && s.fcmd == 0#16 && s.faddr == 0)
    || (s.status == FaultCode.illegal.status && s.faddr == 0)
    || (s.status == FaultCode.misaligned.status && s.fcmd == 0x0100#16)
    || (s.status == FaultCode.bus.status && s.fcmd == 0x0100#16)
    || (s.status == FaultCode.noGroup.status && s.faddr == 0)
    || (s.status == FaultCode.noMask.status && s.faddr == 0)

/-- Every LOAD the host has ahead fits the ports, and its addresses lie in the address space: `step` answers a next
state. -/
def State.eventFits (s : State) : HostEvent → Bool
  | .store a _ => s.inSpace a
  | .unmap a => s.inSpace a
  | .rst _ => true
  | .command word addr during _ =>
    during.all (fun w => s.inSpace w.1) &&
      (match decode word addr with
        | .ok i => i.wf s.cfg
        | .error _ => true)

/-- The invariant of every state between commands: legal parameters (00_scope.md R8), G and OUT of WIDTH bytes
(10_state.md R23, R27), M well formed (R24), LANE in range and 0 for "none" (R25, 41_bitmask_ops.md R112), STATUS as R28
says, FADDR of ADDR_WIDTH bits (R29), not busy (R34), memory canonical and inside the address space. -/
structure State.Inv (s : State) : Prop where
  cfgLegal : s.cfg.wf = true
  gLength : s.g.length = s.cfg.width
  outLength : s.out.length = s.cfg.width
  mGood : s.cfg.goodMask s.m = true
  laneInRange : s.lane < s.cfg.width
  laneNone : s.laneSome = false → s.lane = 0
  faultRecord : s.faultRecordOk = true
  faddrFits : s.faddr < 2 ^ s.cfg.addrWidth
  idle : s.busy = false
  memCanonical : Memory.wf s.mem = true
  memInSpace : ∀ cell ∈ s.mem, cell.1 < 2 ^ s.cfg.addrWidth
  windowClosed : s.window = []

/-- While RST is asserted every register is at its reset value (70_reset_and_hazards.md R150). -/
def State.HeldInReset (s : State) : Prop := s.rst = true → s = s.assertRst

/-- The outcome of a run that is never a successful end: the fault state (60_exceptions.md R129), or a stop. -/
def Unsuccessful : Host.Outcome State Fault Refusal → Prop
  | .next t => t.faulted = true
  | .fault _ => True
  | .refused _ => True

/-- The state with every register that a valid bit hides replaced by one fixed value: what commands and outputs can
depend on (10_state.md R36; 40_group_ops.md R85; 41_bitmask_ops.md R110). -/
def State.visible (s : State) : State :=
  { s with
    g := if s.gValid then s.g else []
    m := if s.mValid then s.m else 0#128
    lane := if s.laneValid then s.lane else 0
    laneSome := if s.laneValid then s.laneSome else false
    anyf := if s.anyValid then s.anyf else false
    out := if s.outValid then s.out else []
    rspCode := if s.rspValid then s.rspCode else .ok }

/-- Two states that differ at most in registers hidden behind valid bits. -/
def State.SameVisible (s t : State) : Prop := s.visible = t.visible

/-- Outcomes that agree up to hidden registers. -/
def SameOutcome : Host.Outcome State Fault Refusal → Host.Outcome State Fault Refusal → Prop
  | .next s, .next t => s.SameVisible t
  | .fault r, .fault q => r = q
  | .refused r, .refused q => r = q
  | _, _ => False

/-! ## The host's duties (70_reset_and_hazards.md) -/

/-- R163: no write in the window of the command in progress is to the group at `a`. -/
def State.SingleWriter (s : State) (a : Nat) : Prop := ∀ i < s.cfg.width, s.raced (a + i) = false

/-- A control array as R156 asks: it starts aligned, covers the table's `slots` rounded up to a WIDTH multiple plus one
WIDTH-sized padding region, lies inside the address space, and is readable. -/
structure State.Allocated (s : State) (base slots : Nat) : Prop where
  aligned : base % s.cfg.alignWidth = 0
  inSpace : base + (slots + s.cfg.width - 1) / s.cfg.width * s.cfg.width + s.cfg.width ≤ 2 ^ s.cfg.addrWidth
  readable : ∀ k < (slots + s.cfg.width - 1) / s.cfg.width * s.cfg.width + s.cfg.width,
    (Memory.lookup s.mem (base + k)).isSome = true

/-- R156: a LOAD of a table position, aligned and with its group inside the allocation. -/
def State.TableLoad (s : State) (base slots a : Nat) : Prop :=
  a % s.cfg.alignWidth = 0 ∧ base ≤ a ∧
    a + s.cfg.width ≤ base + ((slots + s.cfg.width - 1) / s.cfg.width * s.cfg.width + s.cfg.width)

end Sys2Proof.Machine
end

