-- ==== Sys2Proof/Certificates/Slice0/Obligations.lean ====
section
/-! DEFINITION. The statements for the provers, and the words they are written in. -/

namespace Sys2Proof.Claims

open Sys2Proof.Machine

/-- A command has completed with OK (10_state.md R34, R35): nothing else of `s` is changed. -/
def answeredOk (s : State) : State := { s with busy := false, rspValid := true, rspCode := .ok }

/-- A command has completed with FAULT and this record (60_exceptions.md R127): nothing else of `s` is changed. -/
def answeredFault (s : State) (status : BitVec 8) (fcmd : CmdWord) (faddr : Nat) : State :=
  { s with status := status, fcmd := fcmd, faddr := faddr, busy := false, rspValid := true, rspCode := .fault }

/-- A command has completed with REJECTED (60_exceptions.md R129): nothing else of `s` is changed. -/
def answeredRejected (s : State) : State := { s with busy := false, rspValid := true, rspCode := .rejected }

/-- The bitmask whose set bits are the sentinel bits of the lanes that satisfy `p`: 00_scope.md R12 as a property. -/
def SetsExactly (s : State) (m : Bitmask) (p : Nat → Prop) : Prop :=
  ∀ k, m.getLsbD k = true ↔ ∃ i < s.cfg.width, p i ∧ k = i * s.cfg.stride + s.cfg.stride - 1

/-- `word` is the command word of `i`, a command that ignores CMD_ADDR (30_encoding.md R66, R68). -/
def WordOf (i : Instr) (word : CmdWord) : Prop := ∀ addr, decode word addr = .ok i

/-- `i` is the command of `word`. Outside the fault state, a match command writes M with the lanes that satisfy `p` and M_VALID, and nothing else;
without a group it faults NO_GROUP (STATUS 0x09), FCMD its word, and changes nothing else. -/
def MatchResult (i : Instr) (word : CmdWord) (p : State → Nat → Prop) : Prop :=
  WordOf i word ∧ ∀ s : State, s.faulted = false →
    (s.gValid = true → ∃ m,
      exec i s = .next (answeredOk { s with m := m, mValid := true }) ∧ SetsExactly s m (p s)) ∧
    (s.gValid = false → exec i s = .next (answeredFault s 0x09#8 word 0))

/-- The lane's byte has its top bit set (40_group_ops.md R80). -/
def TopBit (s : State) (i : Nat) : Prop := (s.gLane i).getLsbD 7 = true

/-- The byte at `a + i` answers the LOAD in progress: the host writes it in the window, or memory holds it. -/
def LaneAnswers (s : State) (a i : Nat) : Prop :=
  s.raced (a + i) = true ∨ (Memory.lookup s.mem (a + i)).isSome = true

/-- The byte a LOAD reads in lane i: a free value where the host writes it in the window (20_memory.md R55), else what
memory holds. -/
def LaneHolds (s : State) (a i : Nat) (b : Byte) : Prop :=
  if s.raced (a + i) then b = Config.racedByte (s.draws + i) else Memory.lookup s.mem (a + i) = some b

/-- What a LOAD that passes its checks does: every lane of G is the byte read, G_VALID is set, the WIDTH reads are
requested, WIDTH free values are used up, and nothing else of `s` is changed. -/
def LoadFills (s : State) (a : Nat) : Prop :=
  ∃ bytes : List Byte, bytes.length = s.cfg.width ∧
    (∀ i < s.cfg.width, LaneHolds s a i (bytes.getD i 0#8)) ∧
    exec (.load a) s = .next (answeredOk { s with
      g := bytes, gValid := true, draws := s.draws + s.cfg.width,
      memReqs := (List.range s.cfg.width).map (fun i => a + i) })

/-- The commands that write M from G (10_state.md R37). -/
def IsMatch (i : Instr) : Prop :=
  (∃ b, i = .matchByte b) ∨ i = .matchEmpty ∨ i = .matchEod ∨ i = .matchFull

/-- The commands that read G (60_exceptions.md R126). -/
def readsGroup : Instr → Bool
  | .matchByte _ | .matchEmpty | .matchEod | .matchFull | .convert => true
  | .load _ | .staticEmpty | .lowest | .removeLowest | .any => false

/-- The commands that read M (60_exceptions.md R126). -/
def readsMask : Instr → Bool
  | .lowest | .removeLowest | .any => true
  | .load _ | .matchByte _ | .matchEmpty | .matchEod | .matchFull | .convert | .staticEmpty => false

/-- A command that completed with OK wrote its write set of 10_state.md R37 and nothing else (LOAD besides: the record of
its requests, and the free values it used up). -/
def WroteOnlyItsSet : Instr → State → State → Prop
  | .load _, s, t =>
    t = answeredOk { s with g := t.g, gValid := t.gValid, draws := t.draws, memReqs := t.memReqs }
  | .matchByte _, s, t => t = answeredOk { s with m := t.m, mValid := t.mValid }
  | .matchEmpty, s, t => t = answeredOk { s with m := t.m, mValid := t.mValid }
  | .matchEod, s, t => t = answeredOk { s with m := t.m, mValid := t.mValid }
  | .matchFull, s, t => t = answeredOk { s with m := t.m, mValid := t.mValid }
  | .convert, s, t => t = answeredOk { s with out := t.out, outValid := t.outValid }
  | .staticEmpty, s, t => t = answeredOk { s with out := t.out, outValid := t.outValid }
  | .lowest, s, t => t = answeredOk { s with lane := t.lane, laneSome := t.laneSome, laneValid := t.laneValid }
  | .removeLowest, s, t => t = answeredOk { s with m := t.m }
  | .any, s, t => t = answeredOk { s with anyf := t.anyf, anyValid := t.anyValid }

/-- Two states agree on what a command reads (10_state.md R37; for LOAD also the window and the free values). -/
def AgreeOnReads : Instr → State → State → Prop
  | .load _, s, t => s.mem = t.mem ∧ s.window = t.window ∧ s.draws = t.draws
  | .matchByte _, s, t => s.g = t.g ∧ s.gValid = t.gValid
  | .matchEmpty, s, t => s.g = t.g ∧ s.gValid = t.gValid
  | .matchEod, s, t => s.g = t.g ∧ s.gValid = t.gValid
  | .matchFull, s, t => s.g = t.g ∧ s.gValid = t.gValid
  | .convert, s, t => s.g = t.g ∧ s.gValid = t.gValid
  | .staticEmpty, _, _ => True
  | .lowest, s, t => s.m = t.m ∧ s.mValid = t.mValid
  | .removeLowest, s, t => s.m = t.m ∧ s.mValid = t.mValid
  | .any, s, t => s.m = t.m ∧ s.mValid = t.mValid

/-- Two states agree on what a command writes when it completes with OK (10_state.md R37). -/
def AgreeOnWrites : Instr → State → State → Prop
  | .load _, s, t => s.g = t.g ∧ s.gValid = t.gValid
  | .matchByte _, s, t => s.m = t.m ∧ s.mValid = t.mValid
  | .matchEmpty, s, t => s.m = t.m ∧ s.mValid = t.mValid
  | .matchEod, s, t => s.m = t.m ∧ s.mValid = t.mValid
  | .matchFull, s, t => s.m = t.m ∧ s.mValid = t.mValid
  | .convert, s, t => s.out = t.out ∧ s.outValid = t.outValid
  | .staticEmpty, s, t => s.out = t.out ∧ s.outValid = t.outValid
  | .lowest, s, t => s.lane = t.lane ∧ s.laneSome = t.laneSome ∧ s.laneValid = t.laneValid
  | .removeLowest, s, t => s.m = t.m
  | .any, s, t => s.anyf = t.anyf ∧ s.anyValid = t.anyValid

/-- The value STATUS takes for each cause: `(FCODE << 1) | FAULTED` with the FCODE of 60_exceptions.md R126. -/
def statusOf : FaultCode → BitVec 8
  | .illegal => 0x03#8
  | .misaligned => 0x05#8
  | .bus => 0x07#8
  | .noGroup => 0x09#8
  | .noMask => 0x0B#8

/-- What FADDR receives for each cause: the LOAD address for MISALIGNED and BUS, else 0 (60_exceptions.md R126). -/
def faddrOf (addr : Nat) : FaultCode → Nat
  | .illegal => 0
  | .misaligned => addr
  | .bus => addr
  | .noGroup => 0
  | .noMask => 0

/-- The first check that applies to a command accepted outside the fault state, in the order of 60_exceptions.md R130;
`during` holds the host's writes in its window. -/
def FirstFault (s : State) (word : CmdWord) (addr : Nat) (during : List Host.Cell) : Option FaultCode → Prop
  | r =>
    match decode word addr with
    | .error _ => r = some .illegal
    | .ok (.load a) =>
      if a % s.cfg.alignWidth ≠ 0 then r = some .misaligned
      else if 2 ^ s.cfg.addrWidth < a + s.cfg.width then r = some .bus
      else (r = some .bus ∧ ∃ i < s.cfg.width, ¬ LaneAnswers { s with window := during } a i)
        ∨ (r = none ∧ ∀ i < s.cfg.width, LaneAnswers { s with window := during } a i)
    | .ok i =>
      if readsGroup i && !s.gValid then r = some .noGroup
      else if readsMask i && !s.mValid then r = some .noMask
      else r = none

/-- The head of the host's list is a command the matcher accepts and that runs to completion: ready, no reset in the
window, every write of the window in the address space, and a LOAD's operand as wide as its port. -/
def Accepts (s : State) (word : CmdWord) (addr : Nat) (during : List Host.Cell) (rest : List HostEvent) : Prop :=
  s.host = .command word addr during false :: rest ∧ s.cmdReady = true ∧
    s.eventFits (.command word addr during false) = true

/-- `s` after a command whose window held the writes `during`, but for what the command itself did. -/
def afterWindow (s : State) (during : List Host.Cell) (rest : List HostEvent) : State :=
  { s with host := rest, mem := Memory.storeAll s.mem during, window := [], memReqs := [] }

end Sys2Proof.Claims

open Sys2Proof Sys2Proof.Machine Sys2Proof.Claims

/-! ## Encoding -/

/-- R68, R72, R74, R75: decoding the words of a command gives the command back, for every operand. -/
def Obligations.DecodeOfEncodeIsTheCommand : Prop :=
  ∀ i : Instr, decode (encode i).1 (encode i).2 = .ok i

/-- R66, R70, R72: a word that decodes is the word of the command it decodes to, so each word has one meaning; CMD_ADDR
goes to LOAD alone. -/
def Obligations.EncodeOfDecodeIsTheWord : Prop :=
  ∀ (w : CmdWord) (addr : Nat) (i : Instr), decode w addr = .ok i →
    encodeWord i = w ∧ (i = .load addr ∨ ∀ addr', decode w addr' = .ok i)

/-- R69: a word is illegal exactly in the rule's three cases, 265 words are legal, and an accepted illegal command faults
ILLEGAL and changes no other state. -/
def Obligations.IllegalWordsAreExactlyThese : Prop :=
  (∀ (w : CmdWord) (addr : Nat), (∃ e, decode w addr = .error e) ↔
    (w.extractLsb' 12 4 ≠ 0#4 ∨ w.extractLsb' 8 4 ∈ [0x0#4, 0xB#4, 0xC#4, 0xD#4, 0xE#4, 0xF#4]
      ∨ (w.extractLsb' 8 4 ≠ 0x2#4 ∧ w.extractLsb' 0 8 ≠ 0#8))) ∧
  (Finset.univ.filter (fun w : CmdWord => (decode w 0).toOption.isSome = true)).card = 265 ∧
  (∀ (s : State) (word : CmdWord) (addr : Nat) (during : List Host.Cell) (rest : List HostEvent) (e : DecodeError),
    Accepts s word addr during rest → s.faulted = false → decode word addr = .error e →
    step s = .next (answeredFault (afterWindow s during rest) 0x03#8 word 0))

/-- Words written out from R68's table, and words R69 makes illegal. -/
def Obligations.SampleWordsDecode : Prop :=
  decode 0x0100#16 0x1000 = .ok (.load 0x1000) ∧ decode 0x0212#16 0 = .ok (.matchByte 0x12#8) ∧
  decode 0x02FF#16 7 = .ok (.matchByte 0xFF#8) ∧ decode 0x0600#16 0 = .ok .convert ∧
  decode 0x0700#16 0 = .ok .staticEmpty ∧ decode 0x0900#16 0 = .ok .removeLowest ∧
  decode 0x0A00#16 5 = .ok .any ∧ decode 0x0000#16 0 = .error (.noSuchOpcode 0x0#4) ∧
  decode 0x0101#16 0 = .error (.strayImmediate 0x01#8) ∧ decode 0x8212#16 0 = .error (.reservedBits 0x8#4)

/-- R76, R77: the expansions of the pseudo-instructions; MATCH_H2 above 0x7F is an assembly error. -/
def Obligations.PseudoInstructionsExpand : Prop :=
  ∀ c : Config,
    Asm.words c .matchDeleted = .ok [(0x0200#16 ||| c.deleted.setWidth 16, 0)] ∧
    (∀ h ≤ 0x7F, Asm.words c (.matchH2 h) = .ok [(0x0200#16 ||| BitVec.ofNat 16 h, 0)]) ∧
    (∀ h, 0x7F < h → Asm.words c (.matchH2 h) = .error (.h2OutOfRange h)) ∧
    Asm.words c .nextLane = .ok [(0x0800#16, 0), (0x0900#16, 0)]

/-! ## The step -/

/-- R21, R34, R72: an accepted legal command is run by `exec` on the accepted state (busy, no response, no request yet,
the host's writes of the window at hand), after which the writes of the window are in memory. -/
def Obligations.StepRunsTheDecodedCommand : Prop :=
  ∀ (s : State) (word : CmdWord) (addr : Nat) (during : List Host.Cell) (rest : List HostEvent) (i : Instr),
    Accepts s word addr during rest → decode word addr = .ok i →
    step s = andThen (exec i { s with host := rest, busy := true, rspValid := false, memReqs := [], window := during })
      (fun t => { t with mem := Memory.storeAll t.mem t.window, window := [] })

/-- The host's fetch word is what the next step runs. -/
def Obligations.StepRunsTheFetchWord : Prop :=
  ∀ (s : State) (nbits w : Nat) (i : Instr), decodeTableWord nbits w = some i → i.wf s.cfg = true →
    step (s.withFetchWord nbits w) =
      andThen (exec i { s with rst := false, busy := true, rspValid := false, memReqs := [], window := [] })
        (fun t => { t with mem := Memory.storeAll t.mem t.window, window := [] })

/-- From R127, R129, R130: every accepted command, legal or not, completes in one of three ways. In the fault state it is
REJECTED; else the first check that applies is taken as a fault, with its record and nothing else changed (but the
requests a LOAD has made, of which there are none before its bytes are read); else it completes with OK and STATUS, FCMD and FADDR are as before. THE MODEL'S CHOICE (log 4, for R55): a byte the host
writes in a LOAD's window counts as answered without an error, so whether such a LOAD is BUS or OK rests on log 4; that an
unlisted address answers an error is log 3. -/
def Obligations.FirstCheckDecidesTheResponse : Prop :=
  ∀ (s : State) (word : CmdWord) (addr : Nat) (during : List Host.Cell) (rest : List HostEvent)
    (r : Option FaultCode), Accepts s word addr during rest → FirstFault s word addr during r →
    ∃ t, step s = .next t ∧ t.rspValid = true ∧ t.busy = false ∧
      (s.faulted = true → t = answeredRejected (afterWindow s during rest)) ∧
      (s.faulted = false → ∀ f, r = some f →
        t = answeredFault { afterWindow s during rest with memReqs := t.memReqs } (statusOf f) word (faddrOf addr f) ∧
        (f ≠ .bus ∨ 2 ^ s.cfg.addrWidth < addr + s.cfg.width → t.memReqs = [])) ∧
      (s.faulted = false → r = none →
        t.rspCode = .ok ∧ t.status = s.status ∧ t.fcmd = s.fcmd ∧ t.faddr = s.faddr)

/-- R129, R133: in the fault state, whatever the host does, every register keeps its value and a command is REJECTED,
until RST is asserted, which clears STATUS, FCMD and FADDR. -/
def Obligations.FaultStateLastsUntilReset : Prop :=
  ∀ s t : State, s.faulted = true → step s = .next t →
    (t.faulted = true ∧ t.status = s.status ∧ t.fcmd = s.fcmd ∧ t.faddr = s.faddr ∧
      t.g = s.g ∧ t.gValid = s.gValid ∧ t.m = s.m ∧ t.mValid = s.mValid ∧
      t.lane = s.lane ∧ t.laneSome = s.laneSome ∧ t.laneValid = s.laneValid ∧
      t.anyf = s.anyf ∧ t.anyValid = s.anyValid ∧ t.out = s.out ∧ t.outValid = s.outValid ∧
      ((∃ word addr during rest, Accepts s word addr during rest) → t.rspValid = true ∧ t.rspCode = .rejected)) ∨
    (t.rst = true ∧ t.status = 0#8 ∧ t.fcmd = 0#16 ∧ t.faddr = 0 ∧ t.gValid = false ∧ t.mValid = false ∧
      t.laneValid = false ∧ t.anyValid = false ∧ t.outValid = false ∧ t.rspValid = false ∧
      ((∃ rest, s.host = .rst true :: rest) ∨
        ∃ word addr during rest, s.host = .command word addr during true :: rest))

/-- R131, R150, R151: RST, between commands or in a command's window, puts every register at its reset value, gives no
response and keeps parameters and memory (with the host's own writes); its release makes the matcher ready. -/
def Obligations.RstReachesTheResetState : Prop :=
  ∀ (s : State) (rest : List HostEvent),
    (s.host = .rst true :: rest →
      step s = .next { State.resetFor s.cfg with
        rst := true, mem := s.mem, host := rest, window := s.window, draws := s.draws }) ∧
    (∀ (word : CmdWord) (addr : Nat) (during : List Host.Cell),
      s.host = .command word addr during true :: rest → s.cmdReady = true →
      during.all (fun w => decide (w.1 < 2 ^ s.cfg.addrWidth)) = true →
      step s = .next { State.resetFor s.cfg with
        rst := true, mem := Memory.storeAll s.mem during, host := rest, window := [], draws := s.draws }) ∧
    (s.host = .rst false :: rest → ∃ t, step s = .next t ∧ t = { s with host := rest, rst := false } ∧
      (s.busy = false → t.cmdReady = true))

/-- R40: the state after reset has every value that rule gives. -/
def Obligations.ResetStateHasTheSpecsValues : Prop :=
  ∀ (s : State) (rest : List HostEvent), s.host = .rst true :: .rst false :: rest →
    ∃ t u, step s = .next t ∧ step t = .next u ∧ t.cmdReady = false ∧ u.cmdReady = true ∧
      u.gValid = false ∧ u.mValid = false ∧ u.laneValid = false ∧ u.anyValid = false ∧ u.outValid = false ∧
      u.status = 0x00#8 ∧ u.fcmd = 0x0000#16 ∧ u.faddr = 0 ∧ u.rspValid = false ∧ (∀ n, (u.ports n).memReqValid = false) ∧
      u.cfg.ports = s.cfg.ports

/-- R34, R166: every action of the host that fits the ports and the address space is answered by a next state, and an
accepted command completes. -/
def Obligations.EveryAcceptedCommandCompletes : Prop :=
  ∀ (s : State) (e : HostEvent) (rest : List HostEvent), s.host = e :: rest → s.eventFits e = true →
    ∃ t, step s = .next t ∧ t.host = rest ∧
      (∀ word addr during, Accepts s word addr during rest → t.rspValid = true ∧ t.busy = false)

/-- R45: an action on an address that does not exist stops the model, with the address named. -/
def Obligations.OutsideAddressesStop : Prop :=
  ∀ (s : State) (rest : List HostEvent) (a : Nat), 2 ^ s.cfg.addrWidth ≤ a →
    (∀ b, s.host = .store a b :: rest → step s = .fault (.outsideAddressSpace a)) ∧
    (s.host = .unmap a :: rest → step s = .fault (.outsideAddressSpace a)) ∧
    (∀ word, s.host = .command word a [] false :: rest → s.cmdReady = true → decode word a = .ok (.load a) →
      step s = .refused (.cmdAddrTooWide a))

/-! ## Invariants -/

/-- The invariant of `State.Inv` is kept by every step. -/
def Obligations.EveryStepKeepsTheInvariant : Prop :=
  ∀ s t : State, s.Inv → step s = .next t → t.Inv

/-- The reset state of every legal instance meets the invariant; the machine's own reset state does. -/
def Obligations.ResetMeetsTheInvariant : Prop :=
  (∀ c : Config, c.wf = true → (State.resetFor c).Inv) ∧ State.reset.Inv

/-- R150: while RST is asserted every register stays at its reset value. -/
def Obligations.RegistersAreHeldInReset : Prop :=
  ∀ s t : State, s.HeldInReset → step s = .next t → t.HeldInReset

/-- R155: the constants never change. -/
def Obligations.ParametersNeverChange : Prop :=
  ∀ s t : State, step s = .next t → t.cfg = s.cfg ∧ t.cfg.ports = s.cfg.ports

/-- R30: no command clears a valid bit. -/
def Obligations.ValidBitsAreClearedByResetAlone : Prop :=
  ∀ s t : State, step s = .next t →
    ((s.gValid = true → t.gValid = true) ∧ (s.mValid = true → t.mValid = true) ∧
      (s.laneValid = true → t.laneValid = true) ∧ (s.anyValid = true → t.anyValid = true) ∧
      (s.outValid = true → t.outValid = true)) ∨
    t.rst = true

/-! ## Isolation -/

/-- R36, R40, R85, R110: a register whose valid bit is 0 decides nothing: two states that differ in such registers alone
step to states that differ in such registers alone. The model's reset values of G, M, LANE, LANE_SOME, ANYF, OUT and
RSP_CODE (DESIGN CHOICE, log 2) therefore cannot be told apart. -/
def Obligations.HiddenRegistersDecideNothing : Prop :=
  ∀ s t : State, s.SameVisible t → SameOutcome (step s) (step t)

/-- R36: no output shows a register whose valid bit is 0. -/
def Obligations.OutputsShowNoHiddenRegister : Prop :=
  ∀ (s t : State) (n : Nat), s.SameVisible t → s.ports n = t.ports n

/-- R17, R37: what a command writes depends on its read set alone. -/
def Obligations.ResultsDependOnTheReadSet : Prop :=
  ∀ (i : Instr) (s t s' t' : State), s.faulted = false → t.faulted = false → s.cfg = t.cfg → AgreeOnReads i s t →
    exec i s = .next s' → exec i t = .next t' →
    s'.rspCode = t'.rspCode ∧ (s'.rspCode = .ok → AgreeOnWrites i s' t') ∧
      (s'.rspCode = .fault → s'.status = t'.status ∧ s'.fcmd = t'.fcmd ∧ s'.faddr = t'.faddr)

/-! ## Frames -/

/-- R37: what each command may change, by its response; memory is never changed. -/
def Obligations.EveryCommandKeepsToItsWriteSet : Prop :=
  ∀ (i : Instr) (s t : State), exec i s = .next t →
    (t.rspCode = .ok → WroteOnlyItsSet i s t) ∧
    (t.rspCode = .fault → t = answeredFault { s with memReqs := t.memReqs } t.status t.fcmd t.faddr ∧
      ((∀ a, i ≠ .load a) → t.memReqs = s.memReqs)) ∧
    (t.rspCode = .rejected → t = answeredRejected s) ∧
    (∀ x, Memory.lookup t.mem x = Memory.lookup s.mem x)

/-- From R53, R56: a completed host write changes the byte written and nothing else, no register among them. That the
written address becomes readable is the model's choice (log 3). -/
def Obligations.HostWriteChangesOneByte : Prop :=
  ∀ (s : State) (rest : List HostEvent) (a : Nat) (b : Byte), s.host = .store a b :: rest → a < 2 ^ s.cfg.addrWidth →
    ∃ t, step s = .next t ∧ t = { s with host := rest, mem := t.mem } ∧ Memory.lookup t.mem a = some b ∧
      ∀ x, x ≠ a → Memory.lookup t.mem x = Memory.lookup s.mem x

/-! ## LOAD -/

/-- From R86: a LOAD that passes its checks fills G. A byte the host writes in the window is a free value, answered without
an error (the model's choice, log 4); the statement holds for every value of it. -/
def Obligations.LoadFillsTheGroup : Prop :=
  ∀ (s : State) (a : Nat), s.faulted = false → a % s.cfg.alignWidth = 0 → a + s.cfg.width ≤ 2 ^ s.cfg.addrWidth →
    (∀ i < s.cfg.width, LaneAnswers s a i) → LoadFills s a

/-- R50: a misaligned LOAD faults MISALIGNED and requests nothing; with ALIGN_WIDTH = 1 none is misaligned. -/
def Obligations.MisalignedLoadFaults : Prop :=
  (∀ (s : State) (a : Nat), s.faulted = false → a % s.cfg.alignWidth ≠ 0 →
    exec (.load a) s = .next (answeredFault s 0x05#8 0x0100#16 a)) ∧
  (∀ (s : State) (a : Nat), s.cfg.alignWidth = 1 → a % s.cfg.alignWidth = 0)

/-- R51: an aligned LOAD past the top of the address space faults BUS and requests nothing; with ALIGN_WIDTH = WIDTH, and
WIDTH dividing 2^ADDR_WIDTH as the rule takes for granted (log 19), no aligned address is past the top. -/
def Obligations.LoadPastTheTopFaults : Prop :=
  (∀ (s : State) (a : Nat), s.faulted = false → a % s.cfg.alignWidth = 0 → 2 ^ s.cfg.addrWidth < a + s.cfg.width →
    exec (.load a) s = .next (answeredFault s 0x07#8 0x0100#16 a)) ∧
  (∀ (c : Config) (a : Nat), c.alignWidth = c.width → c.width ∣ 2 ^ c.addrWidth → a < 2 ^ c.addrWidth →
    a % c.alignWidth = 0 → a + c.width ≤ 2 ^ c.addrWidth)

/-- R49, R86, R128: a LOAD one of whose bytes answers an error faults BUS with its base address, after requesting the
group; nothing else is changed. -/
def Obligations.UnreadableLoadFaults : Prop :=
  ∀ (s : State) (a i : Nat), s.faulted = false → a % s.cfg.alignWidth = 0 → a + s.cfg.width ≤ 2 ^ s.cfg.addrWidth →
    i < s.cfg.width → ¬ LaneAnswers s a i →
    exec (.load a) s = .next (answeredFault { s with memReqs := (List.range s.cfg.width).map (fun j => a + j) }
      0x07#8 0x0100#16 a)

/-- R52: a LOAD that passes R50 and R51 requests each byte of its group once, and no other address. -/
def Obligations.LoadRequestsItsGroupOnce : Prop :=
  ∀ (s t : State) (a : Nat), s.faulted = false → a % s.cfg.alignWidth = 0 → a + s.cfg.width ≤ 2 ^ s.cfg.addrWidth →
    exec (.load a) s = .next t →
    t.memReqs.length = s.cfg.width ∧ t.memReqs.Nodup ∧ ∀ x, x ∈ t.memReqs ↔ a ≤ x ∧ x < a + s.cfg.width

/-- R87: a LOAD replaces every byte of G and sets G_VALID, or leaves both as they were; memory is not changed. -/
def Obligations.LoadIsAllOrNothing : Prop :=
  ∀ (s t : State) (a : Nat), exec (.load a) s = .next t → t.mem = s.mem ∧
    ((t.rspCode = .ok ∧ t.gValid = true ∧ t.g.length = s.cfg.width ∧
        ∀ i < s.cfg.width, LaneHolds s a i (t.gLane i)) ∨
      (t.rspCode ≠ .ok ∧ t.g = s.g ∧ t.gValid = s.gValid))

/-- R88: two LOADs of one address, with the group's bytes the same and none written in either window, fill G alike. -/
def Obligations.EqualMemoryLoadsAlike : Prop :=
  ∀ (s t s' t' : State) (a : Nat), s.cfg = t.cfg →
    (∀ i < s.cfg.width, Memory.lookup s.mem (a + i) = Memory.lookup t.mem (a + i)) →
    s.SingleWriter a → t.SingleWriter a →
    exec (.load a) s = .next s' → exec (.load a) t = .next t' → s'.rspCode = .ok → t'.rspCode = .ok →
    s'.g = t'.g

/-- From R53, R56: a byte the host has completed writing is what the next LOAD of it reads. THE MODEL'S CHOICE (log 3): a
completed host write makes its address readable, so a + i may have been unreadable before it. -/
def Obligations.LoadReadsTheCompletedWrite : Prop :=
  ∀ (s t : State) (rest : List HostEvent) (a i : Nat) (b : Byte),
    s.host = .store (a + i) b :: rest → step s = .next t → i < t.cfg.width → t.faulted = false →
    a % t.cfg.alignWidth = 0 → a + t.cfg.width ≤ 2 ^ t.cfg.addrWidth → t.SingleWriter a →
    (∀ j < t.cfg.width, j ≠ i → (Memory.lookup s.mem (a + j)).isSome = true) →
    ∃ u, exec (.load a) t = .next u ∧ u.rspCode = .ok ∧ u.gLane i = b

/-- R156: under the padding invariant and a single writer, no LOAD of a table position faults, and every lane is a byte
of the allocation. -/
def Obligations.TableLoadsNeverFault : Prop :=
  ∀ (s : State) (base slots a : Nat), s.faulted = false → s.Allocated base slots → s.TableLoad base slots a →
    s.SingleWriter a →
    ∃ t, exec (.load a) s = .next t ∧ t.rspCode = .ok ∧ t.gValid = true ∧
      ∀ i < s.cfg.width, Memory.lookup s.mem (a + i) = some (t.gLane i)

/-! ## The matches, CONVERT and STATIC_EMPTY -/

/-- R89: MATCH_BYTE b reports the lanes equal to b, exactly. -/
def Obligations.MatchByteReportsEqualLanes : Prop :=
  ∀ b : Byte, MatchResult (.matchByte b) (0x0200#16 ||| b.setWidth 16) (fun s i => s.gLane i = b)

/-- R91: MATCH_EMPTY reports the lanes that hold 0xFF. -/
def Obligations.MatchEmptyReportsEmptyLanes : Prop :=
  MatchResult .matchEmpty 0x0300#16 (fun s i => s.gLane i = 0xFF#8)

/-- R93: MATCH_EOD reports the lanes whose top bit is set, non-canonical bytes among them. -/
def Obligations.MatchEodReportsSpecialLanes : Prop :=
  MatchResult .matchEod 0x0400#16 TopBit

/-- R95: MATCH_FULL reports the lanes whose top bit is clear, and sets sentinel bits alone. -/
def Obligations.MatchFullReportsFullLanes : Prop :=
  MatchResult .matchFull 0x0500#16 (fun s i => ¬ TopBit s i)

/-- R97: CONVERT writes OUT: EMPTY for a special lane, DELETED for a full one; without a group it faults NO_GROUP. -/
def Obligations.ConvertRewritesTheGroup : Prop :=
  WordOf .convert 0x0600#16 ∧ ∀ s : State, s.faulted = false →
    (s.gValid = true → ∃ bytes : List Byte, bytes.length = s.cfg.width ∧
      exec .convert s = .next (answeredOk { s with out := bytes, outValid := true }) ∧
      ∀ i < s.cfg.width, (TopBit s i → bytes.getD i 0#8 = 0xFF#8) ∧ (¬ TopBit s i → bytes.getD i 0#8 = s.cfg.deleted)) ∧
    (s.gValid = false → exec .convert s = .next (answeredFault s 0x09#8 0x0600#16 0))

/-- R99: STATIC_EMPTY writes WIDTH bytes 0xFF to OUT, whether or not there is a group. -/
def Obligations.StaticEmptyWritesAllEmpty : Prop :=
  WordOf .staticEmpty 0x0700#16 ∧ ∀ s : State, s.faulted = false → ∃ bytes : List Byte, bytes.length = s.cfg.width ∧
    exec .staticEmpty s = .next (answeredOk { s with out := bytes, outValid := true }) ∧
    ∀ i < s.cfg.width, bytes.getD i 0#8 = 0xFF#8

/-- R90: on one group, matches of different bytes share no lane, together they cover every lane, and their lane counts
add up to WIDTH. -/
def Obligations.MatchBytePartitionsTheLanes : Prop :=
  ∀ (s : State) (r : Byte → State), s.faulted = false → s.gValid = true →
    (∀ b, exec (.matchByte b) s = .next (r b)) →
    (∀ b c, b ≠ c → (r b).m &&& (r c).m = 0#128) ∧
    (∀ k, s.cfg.bitmaskMask.getLsbD k = true ↔ ∃ b, (r b).m.getLsbD k = true) ∧
    ((List.range 256).map (fun n => popcount (r (BitVec.ofNat 8 n)).m)).sum = s.cfg.width

/-- R92: MATCH_EMPTY and MATCH_BYTE 0xFF write the same M. -/
def Obligations.MatchEmptyIsMatchByteEmpty : Prop :=
  ∀ s : State, s.faulted = false → s.gValid = true →
    ∃ t, exec .matchEmpty s = .next t ∧ exec (.matchByte 0xFF#8) s = .next t

/-- R94: on a group of canonical bytes MATCH_EOD is MATCH_EMPTY OR MATCH_DELETED. -/
def Obligations.EodIsEmptyOrDeletedOnCanonicalGroups : Prop :=
  ∀ s : State, s.cfg.wf = true → s.faulted = false → s.gValid = true →
    (∀ i < s.cfg.width, s.cfg.canonicalByte (s.gLane i) = true) →
    ∃ t e d, exec .matchEod s = .next t ∧ exec .matchEmpty s = .next e ∧ exec (.matchByte s.cfg.deleted) s = .next d ∧
      t.m = e.m ||| d.m

/-- R96: the laws of MATCH_FULL. -/
def Obligations.MatchFullComplementsMatchEod : Prop :=
  ∀ s : State, s.faulted = false → s.gValid = true →
    ∃ f e, exec .matchFull s = .next f ∧ exec .matchEod s = .next e ∧
      f.m = e.m ^^^ s.cfg.bitmaskMask ∧ f.m &&& e.m = 0#128 ∧ f.m ||| e.m = s.cfg.bitmaskMask ∧
      ∀ k, f.m.getLsbD k = true ↔
        ∃ h : BitVec 7, ∃ t, exec (.matchByte (h.setWidth 8)) s = .next t ∧ t.m.getLsbD k = true

/-- R98: the laws of CONVERT. -/
def Obligations.ConvertLaws : Prop :=
  ∀ s : State, s.cfg.wf = true → s.faulted = false → s.gValid = true →
    ∃ t e, exec .convert s = .next t ∧ exec .matchEod s = .next e ∧
      ((∀ i < s.cfg.width, ¬ TopBit s i) → ∀ i < s.cfg.width, t.outLane i = s.cfg.deleted) ∧
      ((∀ i < s.cfg.width, s.gLane i = 0xFF#8 ∨ s.gLane i = s.cfg.deleted) →
        ∀ i < s.cfg.width, t.outLane i = 0xFF#8) ∧
      ∀ i < s.cfg.width, t.outLane i = 0xFF#8 ↔ i ∈ s.cfg.lanesOf e.m

/-- R100, R157: STATIC_EMPTY's bytes, stored by the host, loaded and matched with MATCH_EMPTY, report every lane. -/
def Obligations.StoredStaticEmptyMatchesEveryLane : Prop :=
  ∀ (s t u : State) (a : Nat), exec .staticEmpty s = .next t → s.faulted = false → u.cfg = s.cfg → u.faulted = false →
    (∀ i < u.cfg.width, Memory.lookup u.mem (a + i) = some (t.outLane i)) → u.SingleWriter a →
    a % u.cfg.alignWidth = 0 → a + u.cfg.width ≤ 2 ^ u.cfg.addrWidth →
    ∃ v w, exec (.load a) u = .next v ∧ exec .matchEmpty v = .next w ∧ w.rspCode = .ok ∧
      w.m = u.cfg.bitmaskMask ∧ ∀ i < u.cfg.width, i ∈ u.cfg.lanesOf w.m

/-- R101: HW and FB report the same lanes for the same bytes, and the same lowest lane where it lies in the shared
range. -/
def Obligations.VariantsReportTheSameLanes : Prop :=
  ∀ (s t : State) (n : WordBytes) (i : Instr), s.cfg.variant = .hw → t.cfg.variant = .fb n →
    s.faulted = false → t.faulted = false → s.gValid = true → t.gValid = true →
    (∀ k < min s.cfg.width t.cfg.width, s.gLane k = t.gLane k) → IsMatch i →
    ∃ s' t' s'' t'', exec i s = .next s' ∧ exec i t = .next t' ∧
      exec .lowest s' = .next s'' ∧ exec .lowest t' = .next t'' ∧
      (∀ k < min s.cfg.width t.cfg.width, k ∈ s.cfg.lanesOf s'.m ↔ k ∈ t.cfg.lanesOf t'.m) ∧
      ((∃ k < min s.cfg.width t.cfg.width, k ∈ s.cfg.lanesOf s'.m) →
        s''.laneSome = true ∧ t''.laneSome = true ∧ s''.lane = t''.lane)

/-! ## The bitmask commands -/

/-- R111: LOWEST reports "none" with LANE = 0 for M = 0, else the lowest set bit's position divided by BITMASK_STRIDE;
without a bitmask it faults NO_MASK. -/
def Obligations.LowestReportsTheLowestLane : Prop :=
  WordOf .lowest 0x0800#16 ∧ ∀ s : State, s.faulted = false →
    (s.mValid = true → s.m = 0#128 →
      exec .lowest s = .next (answeredOk { s with laneSome := false, lane := 0, laneValid := true })) ∧
    (s.mValid = true → ∀ p, s.m.getLsbD p = true → (∀ q < p, s.m.getLsbD q = false) →
      exec .lowest s = .next (answeredOk { s with laneSome := true, lane := p / s.cfg.stride, laneValid := true })) ∧
    (s.mValid = false → exec .lowest s = .next (answeredFault s 0x0B#8 0x0800#16 0))

/-- R112: the lane LOWEST reports is below WIDTH, is set in M, and no lower lane is. -/
def Obligations.ReportedLaneIsTheFirstMatch : Prop :=
  ∀ s t : State, s.cfg.goodMask s.m = true → s.faulted = false → s.mValid = true → exec .lowest s = .next t →
    t.laneSome = true →
    t.lane < s.cfg.width ∧ t.lane ∈ s.cfg.lanesOf s.m ∧ ∀ i ∈ s.cfg.lanesOf s.m, t.lane ≤ i

/-- R113: REMOVE_LOWEST writes M & (M - 1), which is 0 for 0 and clears exactly the lowest set bit of a well-formed M
(the premise is part of `State.Inv`); without a bitmask it faults NO_MASK. -/
def Obligations.RemoveLowestClearsTheLowestBit : Prop :=
  WordOf .removeLowest 0x0900#16 ∧ ∀ s : State, s.cfg.goodMask s.m = true → s.faulted = false →
    (s.mValid = true → ∃ m, exec .removeLowest s = .next (answeredOk { s with m := m }) ∧
      m = s.m &&& (s.m - 1#128) ∧ (s.m = 0#128 → m = 0#128) ∧ s.cfg.goodMask m = true ∧
      ∀ k, m.getLsbD k = true ↔ s.m.getLsbD k = true ∧ ∃ j < k, s.m.getLsbD j = true) ∧
    (s.mValid = false → exec .removeLowest s = .next (answeredFault s 0x0B#8 0x0900#16 0))

/-- R114: REMOVE_LOWEST on M ≠ 0 drops one lane, the one LOWEST reports, and keeps every other. -/
def Obligations.RemoveLowestDropsTheReportedLane : Prop :=
  ∀ s : State, s.cfg.goodMask s.m = true → s.faulted = false → s.mValid = true → s.m ≠ 0#128 →
    ∃ t u, exec .lowest s = .next t ∧ exec .removeLowest s = .next u ∧
      popcount u.m + 1 = popcount s.m ∧
      ∀ i, i ∈ s.cfg.lanesOf u.m ↔ i ∈ s.cfg.lanesOf s.m ∧ i ≠ t.lane

/-- R115: ANY sets ANYF exactly when a bit of M is set; without a bitmask it faults NO_MASK. -/
def Obligations.AnyTestsForALane : Prop :=
  WordOf .any 0x0A00#16 ∧ ∀ s : State, s.faulted = false →
    (s.mValid = true → ∃ b, exec .any s = .next (answeredOk { s with anyf := b, anyValid := true }) ∧
      (b = true ↔ ∃ k, s.m.getLsbD k = true)) ∧
    (s.mValid = false → exec .any s = .next (answeredFault s 0x0B#8 0x0A00#16 0))

/-- R116: ANY sets ANYF exactly when LOWEST sets LANE_SOME. -/
def Obligations.AnyAgreesWithLowest : Prop :=
  ∀ s : State, s.faulted = false → s.mValid = true →
    ∃ t u, exec .any s = .next t ∧ exec .lowest s = .next u ∧ t.anyf = u.laneSome

/-- R117: the loop of LOWEST and REMOVE_LOWEST consumes the lanes of M in ascending order, each once, and stops: after n
rounds it has consumed the first n lanes, and a round more than M has lanes consumes none. -/
def Obligations.IterationYieldsTheLanesInOrder : Prop :=
  ∀ s : State, s.cfg.goodMask s.m = true → s.faulted = false → s.mValid = true →
    (∀ n, iterateLanes n s = (s.cfg.lanesOf s.m).take n) ∧
    (s.cfg.lanesOf s.m).length = popcount s.m ∧ (s.cfg.lanesOf s.m).Pairwise (· < ·)

/-- R118: no bitmask command changes G, so the match that made M makes it again after any of them. -/
def Obligations.ReissuedMatchRebuildsTheBitmask : Prop :=
  ∀ (s t u : State) (j i : Instr), s.faulted = false → s.gValid = true → IsMatch i →
    (j = .lowest ∨ j = .removeLowest ∨ j = .any) →
    exec i s = .next t → exec j t = .next u →
    u.g = s.g ∧ ∃ v, exec i u = .next v ∧ v.m = t.m

/-! ## Outputs -/

/-- R23, R27, R36: with OUT_VALID = 1 and no command in progress, bits [8i+7:8i] of OUT_BYTES are OUT[i] (OUT has WIDTH
bytes, part of `State.Inv`). -/
def Obligations.OutBytesPackTheLanes : Prop :=
  ∀ (s : State) (n i : Nat), s.out.length = s.cfg.width → s.outValid = true → s.busy = false → i < s.cfg.width →
    (s.ports n).outBytes.extractLsb' (8 * i) 8 = s.outLane i

/-- R33: whatever the state and the sample, RSP_CODE is never 3, and MEM_REQ_ADDR fits its ADDR_WIDTH bits. The values
shown while RSP_VALID or MEM_REQ_VALID is 0 are free (log 13). -/
def Obligations.PortsStayInRange : Prop :=
  ∀ (s : State) (n : Nat), (s.ports n).rspCode ≠ 3#2 ∧ (s.ports n).memReqAddr < 2 ^ s.cfg.addrWidth

/-- From R49, R52: the read channel of a LOAD that passes R50 and R51 shows WIDTH requests, and each address of the group at
exactly one beat; the order is free (log 9). A command of any other kind, accepted with an empty
record as every command is, requests nothing (R45). -/
def Obligations.ReadChannelShowsTheGroup : Prop :=
  (∀ (s t : State) (a n : Nat), s.faulted = false → a % s.cfg.alignWidth = 0 → a + s.cfg.width ≤ 2 ^ s.cfg.addrWidth →
    exec (.load a) s = .next t →
    (∀ k, (t.memRequest n k).memReqValid = true ↔ k < s.cfg.width) ∧
    (∀ k < s.cfg.width, a ≤ (t.memRequest n k).memReqAddr ∧ (t.memRequest n k).memReqAddr < a + s.cfg.width) ∧
    (∀ x, a ≤ x → x < a + s.cfg.width → ∃ k < s.cfg.width, (t.memRequest n k).memReqAddr = x ∧
      ∀ j < s.cfg.width, (t.memRequest n j).memReqAddr = x → j = k)) ∧
  (∀ (i : Instr) (s t : State) (n k : Nat), (∀ a, i ≠ .load a) → s.memReqs = [] → exec i s = .next t →
    (t.memRequest n k).memReqValid = false)
end

