-- ==== Sys2Proof/Laws/Decode.lean ====
section
/-! SUPPORT. The fields of an encoded word, and what a word that decodes looks like. -/

namespace Sys2Proof

/-- RSV of an encoded word is 0 (30_encoding.md R65). -/
@[simp] theorem rsvField_pack (o : BitVec 4) (b : Byte) :
    rsvField ((o.setWidth 16 <<< 8) ||| b.setWidth 16) = 0#4 := by
  apply BitVec.eq_of_getLsbD_eq
  intro k hk
  have : k = 0 ∨ k = 1 ∨ k = 2 ∨ k = 3 := by omega
  rcases this with rfl | rfl | rfl | rfl <;> simp [rsvField]

/-- OPC of an encoded word (30_encoding.md R65). -/
@[simp] theorem opcField_pack (o : BitVec 4) (b : Byte) :
    opcField ((o.setWidth 16 <<< 8) ||| b.setWidth 16) = o := by
  apply BitVec.eq_of_getLsbD_eq
  intro k hk
  have : k = 0 ∨ k = 1 ∨ k = 2 ∨ k = 3 := by omega
  rcases this with rfl | rfl | rfl | rfl <;> simp [opcField]

/-- IMM8 of an encoded word (30_encoding.md R65). -/
@[simp] theorem immField_pack (o : BitVec 4) (b : Byte) :
    immField ((o.setWidth 16 <<< 8) ||| b.setWidth 16) = b := by
  apply BitVec.eq_of_getLsbD_eq
  intro k hk
  have : k = 0 ∨ k = 1 ∨ k = 2 ∨ k = 3 ∨ k = 4 ∨ k = 5 ∨ k = 6 ∨ k = 7 := by omega
  rcases this with rfl | rfl | rfl | rfl | rfl | rfl | rfl | rfl <;>
    simp [immField]

@[simp] theorem rsvField_encodeWord (i : Instr) : rsvField (encodeWord i) = 0#4 := rsvField_pack _ _

@[simp] theorem opcField_encodeWord (i : Instr) : opcField (encodeWord i) = i.opc := opcField_pack _ _

@[simp] theorem immField_encodeWord (i : Instr) : immField (encodeWord i) = i.imm := immField_pack _ _

/-- A word is its three fields (30_encoding.md R65). -/
theorem word_of_fields {w : CmdWord} (h : rsvField w = 0#4) :
    w = ((opcField w).setWidth 16 <<< 8) ||| (immField w).setWidth 16 := by
  apply BitVec.eq_of_getLsbD_eq
  intro k hk
  have hr : ∀ j < 4, w.getLsbD (12 + j) = false := by
    intro j hj
    have := congrArg (fun v => v.getLsbD j) h
    simpa [rsvField, BitVec.getLsbD_extractLsb', hj] using this
  simp only [BitVec.getLsbD_or, BitVec.getLsbD_shiftLeft, BitVec.getLsbD_setWidth, opcField, immField,
    BitVec.getLsbD_extractLsb']
  rcases Nat.lt_or_ge k 8 with h8 | h8
  · simp [h8, hk]
  · rcases Nat.lt_or_ge k 12 with h12 | h12
    · have h1 : ¬ k < 8 := by omega
      have h2 : k - 8 < 4 := by omega
      have h3 : 8 + (k - 8) = k := by omega
      have h4 : k - 8 < 16 := by omega
      simp [h1, h2, h3, h4, hk]
    · have h1 : ¬ k < 8 := by omega
      have h2 : ¬ k - 8 < 4 := by omega
      have := hr (k - 12) (by omega)
      have h3 : 12 + (k - 12) = k := by omega
      rw [h3] at this
      simp [h1, h2, this]

/-- A command without an immediate decodes where IMM8 is 0, and not elsewhere (30_encoding.md R72). -/
theorem decodePlain_eq_ok {w : CmdWord} {i j : Instr} :
    decodePlain w i = .ok j ↔ immField w = 0#8 ∧ i = j := by
  unfold decodePlain
  split <;> simp_all

/-- What a word that decodes is: RSV is 0 and the fields are the command's (30_encoding.md R72). -/
theorem decode_eq_ok {w : CmdWord} {addr : Nat} {i : Instr} (h : decode w addr = .ok i) :
    rsvField w = 0#4 ∧ opcField w = i.opc ∧ immField w = i.imm ∧ (∀ a, i = .load a → a = addr) := by
  unfold decode at h
  split at h
  · cases h
  · next hr =>
    have hr : rsvField w = 0#4 := by simpa using hr
    have hopc : ∀ {n : Nat} (_ : n < 16), (opcField w).toNat = n → opcField w = BitVec.ofNat 4 n := by
      intro n hn he
      apply BitVec.eq_of_toNat_eq
      simp [he]
      omega
    split at h <;> first
      | (next he =>
          obtain ⟨hi, rfl⟩ := decodePlain_eq_ok.1 h
          exact ⟨hr, hopc (by decide) he, hi, by simp⟩)
      | (next he =>
          cases h
          exact ⟨hr, hopc (by decide) he, rfl, by simp⟩)
      | cases h

end Sys2Proof
end

