-- ==== Sys2Proof/Laws/Lanes.lean ====
section
/-! SUPPORT. The laws of the lane encoder, of bitmasks, and of the bitmask arithmetic (00_scope.md R12 to R14,
41_bitmask_ops.md). -/

namespace Sys2Proof

/-! ## Parameters -/

theorem Config.width_cases (c : Config) : c.width = 4 ∨ c.width = 8 ∨ c.width = 16 := by
  rcases c with ⟨v, _, _, _⟩
  rcases v with _ | (_ | _) <;> simp [Config.width, WordBytes.count]

theorem Config.width_pos (c : Config) : 0 < c.width := by
  rcases c.width_cases with h | h | h <;> omega

theorem Config.stride_cases (c : Config) : c.stride = 1 ∨ c.stride = 8 := by
  rcases c with ⟨v, _, _, _⟩
  rcases v with _ | _ <;> simp [Config.stride]

theorem Config.stride_pos (c : Config) : 0 < c.stride := by
  rcases c.stride_cases with h | h <;> omega

/-- The bitmask fits the carrier. -/
theorem Config.bits_le (c : Config) : c.width * c.stride ≤ 128 := by
  rcases c with ⟨v, _, _, _⟩
  rcases v with _ | (_ | _) <;> simp [Config.width, Config.stride, WordBytes.count]

/-- Every lane's sentinel bit lies inside BITMASK_BITS. -/
theorem Config.sentinel_lt (c : Config) {i : Nat} (h : i < c.width) : c.sentinel i < c.width * c.stride := by
  have hs := c.stride_pos
  have : (i + 1) * c.stride ≤ c.width * c.stride := Nat.mul_le_mul_right _ h
  unfold Config.sentinel
  rw [Nat.add_mul] at this
  omega

theorem Config.sentinel_lt_128 (c : Config) {i : Nat} (h : i < c.width) : c.sentinel i < 128 :=
  lt_of_lt_of_le (c.sentinel_lt h) c.bits_le

/-- The lane decoder undoes the sentinel position (00_scope.md R13). -/
@[simp] theorem Config.laneOfBit_sentinel (c : Config) (i : Nat) : c.laneOfBit (c.sentinel i) = i := by
  rcases c.stride_cases with h | h <;> simp only [Config.laneOfBit, Config.sentinel, h] <;> omega

theorem Config.sentinel_injective (c : Config) {i j : Nat} (h : c.sentinel i = c.sentinel j) : i = j := by
  have := congrArg c.laneOfBit h
  simpa using this

theorem Config.sentinel_lt_iff (c : Config) {i j : Nat} : c.sentinel i < c.sentinel j ↔ i < j := by
  rcases c.stride_cases with h | h <;> simp only [Config.sentinel, h] <;> omega

/-! ## The lane encoder -/

theorem getLsbD_one_shift (n k : Nat) : (1#128 <<< n).getLsbD k = decide (k < 128 ∧ k = n) := by
  rw [BitVec.getLsbD_shiftLeft]
  by_cases hk : k < 128 <;> by_cases hn : k < n <;> simp [hk, hn, BitVec.getLsbD_one] <;> omega

theorem Config.getLsbD_encLanes (c : Config) (p : Nat → Bool) (k : Nat) :
    ∀ n ≤ c.width, ((c.encLanes p n).getLsbD k = true ↔ ∃ i < n, p i = true ∧ k = c.sentinel i) := by
  intro n
  induction n with
  | zero => simp [Config.encLanes]
  | succ n ih =>
    intro hn
    have hk := c.sentinel_lt_128 (show n < c.width from hn)
    rw [Config.encLanes, BitVec.getLsbD_or, Bool.or_eq_true, ih (by omega)]
    constructor
    · rintro (⟨i, hi, hp, he⟩ | h)
      · exact ⟨i, by omega, hp, he⟩
      · split at h
        · next hp =>
          rw [getLsbD_one_shift] at h
          exact ⟨n, by omega, hp, (of_decide_eq_true h).2⟩
        · simp at h
    · rintro ⟨i, hi, hp, he⟩
      by_cases hin : i = n
      · subst hin
        refine .inr ?_
        rw [if_pos hp, getLsbD_one_shift]
        exact decide_eq_true ⟨he ▸ hk, he⟩
      · exact .inl ⟨i, by omega, hp, he⟩

/-- A bit of enc(P) is set exactly when it is the sentinel bit of a lane that satisfies P (00_scope.md R12). -/
theorem Config.getLsbD_enc (c : Config) (p : Nat → Bool) (k : Nat) :
    (c.enc p).getLsbD k = true ↔ ∃ i < c.width, p i = true ∧ k = c.sentinel i :=
  c.getLsbD_encLanes p k c.width (Nat.le_refl _)

theorem Config.getLsbD_enc_sentinel (c : Config) (p : Nat → Bool) {i : Nat} (h : i < c.width) :
    (c.enc p).getLsbD (c.sentinel i) = p i := by
  rw [Bool.eq_iff_iff, c.getLsbD_enc]
  constructor
  · rintro ⟨j, _, hp, he⟩
    rwa [c.sentinel_injective he]
  · exact fun hp => ⟨i, h, hp, rfl⟩

theorem Config.getLsbD_bitmaskMask (c : Config) (k : Nat) :
    c.bitmaskMask.getLsbD k = true ↔ ∃ i < c.width, k = c.sentinel i := by
  simp [Config.bitmaskMask, c.getLsbD_enc]

/-- The encoder depends on the lanes below WIDTH alone. -/
theorem Config.enc_congr (c : Config) {p q : Nat → Bool} (h : ∀ i < c.width, p i = q i) : c.enc p = c.enc q := by
  apply BitVec.eq_of_getLsbD_eq
  intro k _
  rw [Bool.eq_iff_iff, c.getLsbD_enc, c.getLsbD_enc]
  constructor <;> rintro ⟨i, hi, hp, he⟩
  · exact ⟨i, hi, h i hi ▸ hp, he⟩
  · exact ⟨i, hi, (h i hi).symm ▸ hp, he⟩

/-! ## Well-formed bitmasks -/

/-- A bitmask is well formed exactly when its set bits are sentinel bits (00_scope.md R14). -/
theorem Config.goodMask_iff (c : Config) (m : Bitmask) :
    c.goodMask m = true ↔ ∀ k, m.getLsbD k = true → ∃ i < c.width, k = c.sentinel i := by
  unfold Config.goodMask
  rw [beq_iff_eq]
  constructor
  · intro h k hk
    by_contra hne
    have hlt : k < 128 := by
      by_contra hge
      rw [BitVec.getLsbD_of_ge _ _ (by omega)] at hk
      exact absurd hk (by decide)
    have hm : c.bitmaskMask.getLsbD k = false := by
      rw [← Bool.not_eq_true, c.getLsbD_bitmaskMask]
      exact hne
    have hb := congrArg (fun v => v.getLsbD k) h
    simp only [BitVec.getLsbD_and, BitVec.getLsbD_not, hk, hm, hlt] at hb
    simp at hb
  · intro h
    apply BitVec.eq_of_getLsbD_eq
    intro k hk
    rw [BitVec.getLsbD_and, BitVec.getLsbD_not]
    by_cases hb : m.getLsbD k = true
    · have := (c.getLsbD_bitmaskMask k).2 (h k hb)
      simp [this]
    · simp [hb]

/-- enc(P) is well formed (00_scope.md R14). -/
theorem Config.enc_good (c : Config) (p : Nat → Bool) : c.goodMask (c.enc p) = true := by
  rw [c.goodMask_iff]
  intro k hk
  obtain ⟨i, hi, _, he⟩ := (c.getLsbD_enc p k).1 hk
  exact ⟨i, hi, he⟩

@[simp] theorem Config.zero_good (c : Config) : c.goodMask 0#128 = true := by
  simp [c.goodMask_iff]

theorem Config.mem_lanesOf (c : Config) (m : Bitmask) (i : Nat) :
    i ∈ c.lanesOf m ↔ i < c.width ∧ m.getLsbD (c.sentinel i) = true := by
  simp [Config.lanesOf]

/-- Two well-formed bitmasks with the same lanes are equal. -/
theorem Config.eq_of_lanes (c : Config) {m n : Bitmask} (hm : c.goodMask m = true) (hn : c.goodMask n = true)
    (h : ∀ i < c.width, m.getLsbD (c.sentinel i) = n.getLsbD (c.sentinel i)) : m = n := by
  rw [c.goodMask_iff] at hm hn
  apply BitVec.eq_of_getLsbD_eq
  intro k _
  rw [Bool.eq_iff_iff]
  constructor <;> intro hk
  · obtain ⟨i, hi, rfl⟩ := hm k hk
    rwa [← h i hi]
  · obtain ⟨i, hi, rfl⟩ := hn k hk
    rwa [h i hi]

/-! ## ctz and REMOVE_LOWEST -/

/-- `ctz` of a non-zero value: the lowest set bit (00_scope.md R11). -/
theorem ctz_spec {m : Bitmask} (h : m ≠ 0#128) : m.getLsbD (ctz m) = true ∧ ∀ j < ctz m, m.getLsbD j = false := by
  have hex : ∃ k ∈ List.range 128, m.getLsbD k = true := by
    by_contra hne
    apply h
    apply BitVec.eq_of_getLsbD_eq
    intro k hk
    have : m.getLsbD k ≠ true := fun hb => hne ⟨k, List.mem_range.2 hk, hb⟩
    simpa using this
  obtain ⟨j, hj⟩ := Option.isSome_iff_exists.1 (List.find?_isSome.2 hex)
  have hc : ctz m = j := by simp [ctz, hj]
  have := List.find?_range_eq_some.1 hj
  rw [hc]
  exact ⟨this.1, fun i hi => by simpa using this.2.2 i hi⟩

/-- The lowest set bit is the only bit with that property. -/
theorem ctz_eq {m : Bitmask} {k : Nat} (hk : m.getLsbD k = true) (hlow : ∀ j < k, m.getLsbD j = false) :
    ctz m = k := by
  have hne : m ≠ 0#128 := by
    rintro rfl
    simp at hk
  obtain ⟨h1, h2⟩ := ctz_spec hne
  rcases Nat.lt_trichotomy (ctz m) k with h | h | h
  · rw [hlow _ h] at h1
    exact absurd h1 (by decide)
  · exact h
  · rw [h2 _ h] at hk
    exact absurd hk (by decide)

/-- What `m - 1` looks like: the bits above the lowest set bit are those of m, that bit is 0, those below are 1. -/
theorem getLsbD_pred {m : Bitmask} (h : m ≠ 0#128) (k : Nat) :
    (m - 1#128).getLsbD k = if k < ctz m then true else if k = ctz m then false else m.getLsbD k := by
  obtain ⟨hset, hlow⟩ := ctz_spec h
  generalize ctz m = j at hset hlow
  have hsplit : m.toNat = 2 ^ (j + 1) * (m.toNat / 2 ^ (j + 1)) + 2 ^ j := by
    have hmod : m.toNat % 2 ^ (j + 1) = 2 ^ j := by
      apply Nat.eq_of_testBit_eq
      intro i
      rw [Nat.testBit_mod_two_pow, Nat.testBit_two_pow]
      have hbit : m.toNat.testBit i = m.getLsbD i := rfl
      rw [hbit]
      rcases Nat.lt_trichotomy i j with hi | hi | hi
      · simp [hlow i hi]
        omega
      · subst hi
        simp [hset]
      · have : ¬ i < j + 1 := by omega
        have : j ≠ i := by omega
        simp [*]
    conv_lhs => rw [← Nat.div_add_mod m.toNat (2 ^ (j + 1)), hmod]
  have hpos : 0 < 2 ^ j := Nat.two_pow_pos j
  have hlt : 2 ^ j - 1 < 2 ^ (j + 1) := by
    rw [Nat.pow_succ]
    omega
  have hpred : (m - 1#128).toNat = 2 ^ (j + 1) * (m.toNat / 2 ^ (j + 1)) + (2 ^ j - 1) := by
    rw [BitVec.toNat_sub_of_le (by rw [BitVec.le_def, hsplit]; exact le_trans hpos (Nat.le_add_left _ _))]
    conv_lhs => rw [hsplit]
    exact Nat.add_sub_assoc hpos _
  have hbit : (m - 1#128).getLsbD k = (m - 1#128).toNat.testBit k := rfl
  rw [hbit, hpred, Nat.testBit_two_pow_mul_add _ hlt]
  rcases Nat.lt_trichotomy k j with hkj | hkj | hkj
  · rw [if_pos (by omega), Nat.testBit_two_pow_sub_one]
    simp [hkj]
  · subst hkj
    simp [Nat.testBit_two_pow_sub_one]
  · rw [if_neg (by omega), Nat.testBit_div_two_pow, if_neg (by omega), if_neg (by omega)]
    have : j + 1 + (k - (j + 1)) = k := by omega
    rw [Nat.add_comm] at this
    rw [this]
    rfl

theorem Config.getLsbD_bitmaskOnes (c : Config) (k : Nat) :
    c.bitmaskOnes.getLsbD k = decide (k < c.width * c.stride) := by
  have hb := c.bits_le
  have hall : ∀ n ≤ 128, ∀ k, ((1#128 <<< n) - 1#128).getLsbD k = decide (k < n) := by
    intro n hn k
    by_cases hk : k < 128
    · rcases Nat.lt_or_ge n 128 with h | h
      · have hne : (1#128 <<< n) ≠ 0#128 := by
          intro h0
          have := getLsbD_one_shift n n
          rw [h0] at this
          simp [h] at this
        have hc : ctz (1#128 <<< n) = n := by
          apply ctz_eq
          · rw [getLsbD_one_shift]
            simp [h]
          · intro j hj
            rw [getLsbD_one_shift]
            simp
            omega
        rw [getLsbD_pred hne k, hc, getLsbD_one_shift]
        rcases Nat.lt_trichotomy k n with h1 | h1 | h1
        · simp [h1]
        · simp [h1]
        · have : ¬ k < n := by omega
          have : k ≠ n := by omega
          simp [*]
      · have : n = 128 := by omega
        subst this
        have : (1#128 <<< 128) - 1#128 = BitVec.allOnes 128 := by decide
        rw [this, BitVec.getLsbD_allOnes]
    · rw [BitVec.getLsbD_of_ge _ _ (by omega)]
      simp
      omega
  exact hall _ hb k

/-- REMOVE_LOWEST clears exactly the lowest set bit: a bit stays set when a lower bit is set too
(41_bitmask_ops.md R113). -/
theorem Config.getLsbD_dropLowest (c : Config) {m : Bitmask} (hm : c.goodMask m = true) (k : Nat) :
    (Machine.dropLowest c m).getLsbD k = true ↔ m.getLsbD k = true ∧ k ≠ ctz m := by
  unfold Machine.dropLowest
  by_cases hk : k < 128
  · by_cases h0 : m = 0#128
    · simp [h0]
    · rw [BitVec.getLsbD_and, BitVec.getLsbD_and, getLsbD_pred h0 k, c.getLsbD_bitmaskOnes]
      obtain ⟨hset, hlow⟩ := ctz_spec h0
      rcases Nat.lt_trichotomy k (ctz m) with h | h | h
      · simp [hlow k h]
      · subst h
        simp
      · have h1 : ¬ k < ctz m := by omega
        have h2 : k ≠ ctz m := by omega
        simp only [if_neg h1, if_neg h2, Bool.and_eq_true, decide_eq_true_eq]
        constructor
        · exact fun h => ⟨h.1, h2⟩
        · rintro ⟨h, -⟩
          obtain ⟨i, hi, rfl⟩ := (c.goodMask_iff m).1 hm k h
          exact ⟨h, h, c.sentinel_lt hi⟩
  · have hge : 128 ≤ k := by omega
    simp [BitVec.getLsbD_of_ge _ _ hge]

/-- REMOVE_LOWEST keeps a bitmask well formed (41_bitmask_ops.md R113). -/
theorem Config.dropLowest_good (c : Config) {m : Bitmask} (hm : c.goodMask m = true) :
    c.goodMask (Machine.dropLowest c m) = true := by
  rw [c.goodMask_iff]
  intro k hk
  exact (c.goodMask_iff m).1 hm k ((c.getLsbD_dropLowest hm k).1 hk).1

/-- The lowest set bit of a well-formed bitmask is the sentinel bit of its lowest lane (41_bitmask_ops.md R111). -/
theorem Config.lowestLane_spec (c : Config) {m : Bitmask} (hm : c.goodMask m = true) (h : m ≠ 0#128) :
    Machine.lowestLane c m < c.width ∧ ctz m = c.sentinel (Machine.lowestLane c m)
      ∧ ∀ i < Machine.lowestLane c m, m.getLsbD (c.sentinel i) = false := by
  obtain ⟨hset, hlow⟩ := ctz_spec h
  obtain ⟨i, hi, he⟩ := (c.goodMask_iff m).1 hm _ hset
  have hl : Machine.lowestLane c m = i := by
    simp [Machine.lowestLane, h, he]
  rw [hl]
  refine ⟨hi, he, fun j hj => hlow _ ?_⟩
  rw [he]
  exact c.sentinel_lt_iff.2 hj

/-- "None" has LANE = 0 (41_bitmask_ops.md R111). -/
@[simp] theorem Machine.lowestLane_zero (c : Config) : Machine.lowestLane c 0#128 = 0 := rfl

end Sys2Proof
end

