-- ==== Sys2Proof/Laws/Memory.lean ====
section
/-! SUPPORT. The laws of the control-byte memory: reading after a write, and the canonical form. -/

namespace Sys2Proof.Machine

@[simp] theorem Memory.lookup_store_same (mem : List Host.Cell) (a : Nat) (b : Byte) :
    Memory.lookup (Memory.store mem a b) a = some b := by
  induction mem with
  | nil => simp [Memory.store, Memory.lookup]
  | cons cell rest ih =>
    obtain ⟨x, c⟩ := cell
    unfold Memory.store
    split
    · simp [Memory.lookup]
    · split
      · simp [Memory.lookup]
      · next h => simp [Memory.lookup, ih, Ne.symm h]

theorem Memory.lookup_store_other (mem : List Host.Cell) {a x : Nat} (b : Byte) (h : x ≠ a) :
    Memory.lookup (Memory.store mem a b) x = Memory.lookup mem x := by
  induction mem with
  | nil => simp [Memory.store, Memory.lookup, Ne.symm h]
  | cons cell rest ih =>
    obtain ⟨y, c⟩ := cell
    unfold Memory.store
    split
    · simp [Memory.lookup, Ne.symm h]
    · split
      · next e => subst e; simp [Memory.lookup, Ne.symm h]
      · simp [Memory.lookup, ih]

@[simp] theorem Memory.lookup_erase_same (mem : List Host.Cell) (a : Nat) :
    Memory.lookup (Memory.erase mem a) a = none := by
  induction mem with
  | nil => rfl
  | cons cell rest ih =>
    obtain ⟨y, c⟩ := cell
    unfold Memory.erase
    split
    · exact ih
    · next h => simp [Memory.lookup, h, ih]

theorem Memory.lookup_erase_other (mem : List Host.Cell) {a x : Nat} (h : x ≠ a) :
    Memory.lookup (Memory.erase mem a) x = Memory.lookup mem x := by
  induction mem with
  | nil => rfl
  | cons cell rest ih =>
    obtain ⟨y, c⟩ := cell
    unfold Memory.erase
    split
    · next e => subst e; simp [Memory.lookup, ih, Ne.symm h]
    · simp [Memory.lookup, ih]

/-- The addresses of a memory after a write: those before, and the one written. -/
theorem Memory.mem_store {mem : List Host.Cell} {a : Nat} {b : Byte} {cell : Host.Cell}
    (h : cell ∈ Memory.store mem a b) : cell = (a, b) ∨ cell ∈ mem := by
  induction mem with
  | nil => simpa [Memory.store] using h
  | cons head rest ih =>
    obtain ⟨y, c⟩ := head
    unfold Memory.store at h
    split at h
    · simpa using h
    · split at h
      · simp only [List.mem_cons] at h ⊢
        tauto
      · simp only [List.mem_cons] at h ⊢
        rcases h with h | h
        · exact .inr (.inl h)
        · exact (ih h).imp_right .inr

theorem Memory.mem_erase {mem : List Host.Cell} {a : Nat} {cell : Host.Cell}
    (h : cell ∈ Memory.erase mem a) : cell ∈ mem := by
  induction mem with
  | nil => simp [Memory.erase] at h
  | cons head rest ih =>
    unfold Memory.erase at h
    split at h
    · exact .tail _ (ih h)
    · simp only [List.mem_cons] at h ⊢
      exact h.imp_right ih

theorem Memory.wf_cons {x : Nat} {c : Byte} {rest : List Host.Cell} :
    Memory.wf ((x, c) :: rest) = true ↔ (∀ cell ∈ rest, x < cell.1) ∧ Memory.wf rest = true := by
  simp [Memory.wf]

/-- A write keeps the canonical form. -/
theorem Memory.store_wf {mem : List Host.Cell} (h : Memory.wf mem = true) (a : Nat) (b : Byte) :
    Memory.wf (Memory.store mem a b) = true := by
  induction mem with
  | nil => rfl
  | cons head rest ih =>
    obtain ⟨y, c⟩ := head
    rw [Memory.wf_cons] at h
    unfold Memory.store
    split
    · next lt =>
      refine Memory.wf_cons.2 ⟨?_, Memory.wf_cons.2 h⟩
      intro cell hc
      rcases List.mem_cons.1 hc with rfl | hc
      · exact lt
      · exact lt.trans (h.1 cell hc)
    · split
      · next e => subst e; exact Memory.wf_cons.2 h
      · next nlt ne =>
        refine Memory.wf_cons.2 ⟨?_, ih h.2⟩
        intro cell hc
        rcases Memory.mem_store hc with rfl | hc
        · exact Nat.lt_of_le_of_ne (Nat.le_of_not_lt nlt) (Ne.symm ne)
        · exact h.1 cell hc

/-- Making an address unreadable keeps the canonical form. -/
theorem Memory.erase_wf {mem : List Host.Cell} (h : Memory.wf mem = true) (a : Nat) :
    Memory.wf (Memory.erase mem a) = true := by
  induction mem with
  | nil => rfl
  | cons head rest ih =>
    obtain ⟨y, c⟩ := head
    rw [Memory.wf_cons] at h
    unfold Memory.erase
    split
    · exact ih h.2
    · exact Memory.wf_cons.2 ⟨fun cell hc => h.1 cell (Memory.mem_erase hc), ih h.2⟩

@[simp] theorem Memory.storeAll_nil (mem : List Host.Cell) : Memory.storeAll mem [] = mem := rfl

@[simp] theorem Memory.storeAll_cons (mem : List Host.Cell) (w : Host.Cell) (ws : List Host.Cell) :
    Memory.storeAll mem (w :: ws) = Memory.storeAll (Memory.store mem w.1 w.2) ws := rfl

/-- Writes in a row keep the canonical form. -/
theorem Memory.storeAll_wf {mem : List Host.Cell} (h : Memory.wf mem = true) (ws : List Host.Cell) :
    Memory.wf (Memory.storeAll mem ws) = true := by
  induction ws generalizing mem with
  | nil => exact h
  | cons w ws ih => exact ih (Memory.store_wf h w.1 w.2)

theorem Memory.mem_storeAll {mem : List Host.Cell} {ws : List Host.Cell} {cell : Host.Cell}
    (h : cell ∈ Memory.storeAll mem ws) : cell ∈ ws ∨ cell ∈ mem := by
  induction ws generalizing mem with
  | nil => exact .inr h
  | cons w ws ih =>
    rcases ih h with h | h
    · exact .inl (.tail _ h)
    · rcases Memory.mem_store h with rfl | h
      · exact .inl (.head _)
      · exact .inr h

/-- An address no write of the row names reads as before. -/
theorem Memory.lookup_storeAll_other {ws : List Host.Cell} {a : Nat} (mem : List Host.Cell)
    (h : ∀ w ∈ ws, w.1 ≠ a) : Memory.lookup (Memory.storeAll mem ws) a = Memory.lookup mem a := by
  induction ws generalizing mem with
  | nil => rfl
  | cons w ws ih =>
    rw [Memory.storeAll_cons, ih _ fun v hv => h v (.tail _ hv)]
    exact Memory.lookup_store_other _ _ (h w (.head _)).symm

end Sys2Proof.Machine
end

