-- ==== Sys2Proof/Laws/State.lean ====
section
/-! SUPPORT. For every update of the state, what each field holds afterwards. -/

namespace Sys2Proof.Machine

variable (s : State)

@[simp] theorem State.accept_cfg (ws : List Host.Cell) : (s.accept ws).cfg = s.cfg := rfl
@[simp] theorem State.accept_g (ws : List Host.Cell) : (s.accept ws).g = s.g := rfl
@[simp] theorem State.accept_gValid (ws : List Host.Cell) : (s.accept ws).gValid = s.gValid := rfl
@[simp] theorem State.accept_m (ws : List Host.Cell) : (s.accept ws).m = s.m := rfl
@[simp] theorem State.accept_mValid (ws : List Host.Cell) : (s.accept ws).mValid = s.mValid := rfl
@[simp] theorem State.accept_lane (ws : List Host.Cell) : (s.accept ws).lane = s.lane := rfl
@[simp] theorem State.accept_laneSome (ws : List Host.Cell) : (s.accept ws).laneSome = s.laneSome := rfl
@[simp] theorem State.accept_laneValid (ws : List Host.Cell) : (s.accept ws).laneValid = s.laneValid := rfl
@[simp] theorem State.accept_anyf (ws : List Host.Cell) : (s.accept ws).anyf = s.anyf := rfl
@[simp] theorem State.accept_anyValid (ws : List Host.Cell) : (s.accept ws).anyValid = s.anyValid := rfl
@[simp] theorem State.accept_out (ws : List Host.Cell) : (s.accept ws).out = s.out := rfl
@[simp] theorem State.accept_outValid (ws : List Host.Cell) : (s.accept ws).outValid = s.outValid := rfl
@[simp] theorem State.accept_status (ws : List Host.Cell) : (s.accept ws).status = s.status := rfl
@[simp] theorem State.accept_fcmd (ws : List Host.Cell) : (s.accept ws).fcmd = s.fcmd := rfl
@[simp] theorem State.accept_faddr (ws : List Host.Cell) : (s.accept ws).faddr = s.faddr := rfl
@[simp] theorem State.accept_busy (ws : List Host.Cell) : (s.accept ws).busy = true := rfl
@[simp] theorem State.accept_rst (ws : List Host.Cell) : (s.accept ws).rst = s.rst := rfl
@[simp] theorem State.accept_rspValid (ws : List Host.Cell) : (s.accept ws).rspValid = false := rfl
@[simp] theorem State.accept_rspCode (ws : List Host.Cell) : (s.accept ws).rspCode = s.rspCode := rfl
@[simp] theorem State.accept_memReqs (ws : List Host.Cell) : (s.accept ws).memReqs = [] := rfl
@[simp] theorem State.accept_mem (ws : List Host.Cell) : (s.accept ws).mem = s.mem := rfl
@[simp] theorem State.accept_host (ws : List Host.Cell) : (s.accept ws).host = s.host := rfl
@[simp] theorem State.accept_window (ws : List Host.Cell) : (s.accept ws).window = ws := rfl
@[simp] theorem State.accept_draws (ws : List Host.Cell) : (s.accept ws).draws = s.draws := rfl

@[simp] theorem State.complete_cfg (r : RspCode) : (s.complete r).cfg = s.cfg := rfl
@[simp] theorem State.complete_g (r : RspCode) : (s.complete r).g = s.g := rfl
@[simp] theorem State.complete_gValid (r : RspCode) : (s.complete r).gValid = s.gValid := rfl
@[simp] theorem State.complete_m (r : RspCode) : (s.complete r).m = s.m := rfl
@[simp] theorem State.complete_mValid (r : RspCode) : (s.complete r).mValid = s.mValid := rfl
@[simp] theorem State.complete_lane (r : RspCode) : (s.complete r).lane = s.lane := rfl
@[simp] theorem State.complete_laneSome (r : RspCode) : (s.complete r).laneSome = s.laneSome := rfl
@[simp] theorem State.complete_laneValid (r : RspCode) : (s.complete r).laneValid = s.laneValid := rfl
@[simp] theorem State.complete_anyf (r : RspCode) : (s.complete r).anyf = s.anyf := rfl
@[simp] theorem State.complete_anyValid (r : RspCode) : (s.complete r).anyValid = s.anyValid := rfl
@[simp] theorem State.complete_out (r : RspCode) : (s.complete r).out = s.out := rfl
@[simp] theorem State.complete_outValid (r : RspCode) : (s.complete r).outValid = s.outValid := rfl
@[simp] theorem State.complete_status (r : RspCode) : (s.complete r).status = s.status := rfl
@[simp] theorem State.complete_fcmd (r : RspCode) : (s.complete r).fcmd = s.fcmd := rfl
@[simp] theorem State.complete_faddr (r : RspCode) : (s.complete r).faddr = s.faddr := rfl
@[simp] theorem State.complete_busy (r : RspCode) : (s.complete r).busy = false := rfl
@[simp] theorem State.complete_rst (r : RspCode) : (s.complete r).rst = s.rst := rfl
@[simp] theorem State.complete_rspValid (r : RspCode) : (s.complete r).rspValid = true := rfl
@[simp] theorem State.complete_rspCode (r : RspCode) : (s.complete r).rspCode = r := rfl
@[simp] theorem State.complete_memReqs (r : RspCode) : (s.complete r).memReqs = s.memReqs := rfl
@[simp] theorem State.complete_mem (r : RspCode) : (s.complete r).mem = s.mem := rfl
@[simp] theorem State.complete_host (r : RspCode) : (s.complete r).host = s.host := rfl
@[simp] theorem State.complete_window (r : RspCode) : (s.complete r).window = s.window := rfl
@[simp] theorem State.complete_draws (r : RspCode) : (s.complete r).draws = s.draws := rfl

@[simp] theorem State.raiseFault_cfg (f : FaultCode) (w : CmdWord) (a : Nat) : (s.raiseFault f w a).cfg = s.cfg := rfl
@[simp] theorem State.raiseFault_g (f : FaultCode) (w : CmdWord) (a : Nat) : (s.raiseFault f w a).g = s.g := rfl
@[simp] theorem State.raiseFault_gValid (f : FaultCode) (w : CmdWord) (a : Nat) : (s.raiseFault f w a).gValid = s.gValid := rfl
@[simp] theorem State.raiseFault_m (f : FaultCode) (w : CmdWord) (a : Nat) : (s.raiseFault f w a).m = s.m := rfl
@[simp] theorem State.raiseFault_mValid (f : FaultCode) (w : CmdWord) (a : Nat) : (s.raiseFault f w a).mValid = s.mValid := rfl
@[simp] theorem State.raiseFault_lane (f : FaultCode) (w : CmdWord) (a : Nat) : (s.raiseFault f w a).lane = s.lane := rfl
@[simp] theorem State.raiseFault_laneSome (f : FaultCode) (w : CmdWord) (a : Nat) : (s.raiseFault f w a).laneSome = s.laneSome := rfl
@[simp] theorem State.raiseFault_laneValid (f : FaultCode) (w : CmdWord) (a : Nat) : (s.raiseFault f w a).laneValid = s.laneValid := rfl
@[simp] theorem State.raiseFault_anyf (f : FaultCode) (w : CmdWord) (a : Nat) : (s.raiseFault f w a).anyf = s.anyf := rfl
@[simp] theorem State.raiseFault_anyValid (f : FaultCode) (w : CmdWord) (a : Nat) : (s.raiseFault f w a).anyValid = s.anyValid := rfl
@[simp] theorem State.raiseFault_out (f : FaultCode) (w : CmdWord) (a : Nat) : (s.raiseFault f w a).out = s.out := rfl
@[simp] theorem State.raiseFault_outValid (f : FaultCode) (w : CmdWord) (a : Nat) : (s.raiseFault f w a).outValid = s.outValid := rfl
@[simp] theorem State.raiseFault_status (f : FaultCode) (w : CmdWord) (a : Nat) : (s.raiseFault f w a).status = f.status := rfl
@[simp] theorem State.raiseFault_fcmd (f : FaultCode) (w : CmdWord) (a : Nat) : (s.raiseFault f w a).fcmd = w := rfl
@[simp] theorem State.raiseFault_faddr (f : FaultCode) (w : CmdWord) (a : Nat) : (s.raiseFault f w a).faddr = a := rfl
@[simp] theorem State.raiseFault_busy (f : FaultCode) (w : CmdWord) (a : Nat) : (s.raiseFault f w a).busy = false := rfl
@[simp] theorem State.raiseFault_rst (f : FaultCode) (w : CmdWord) (a : Nat) : (s.raiseFault f w a).rst = s.rst := rfl
@[simp] theorem State.raiseFault_rspValid (f : FaultCode) (w : CmdWord) (a : Nat) : (s.raiseFault f w a).rspValid = true := rfl
@[simp] theorem State.raiseFault_rspCode (f : FaultCode) (w : CmdWord) (a : Nat) : (s.raiseFault f w a).rspCode = .fault := rfl
@[simp] theorem State.raiseFault_memReqs (f : FaultCode) (w : CmdWord) (a : Nat) : (s.raiseFault f w a).memReqs = s.memReqs := rfl
@[simp] theorem State.raiseFault_mem (f : FaultCode) (w : CmdWord) (a : Nat) : (s.raiseFault f w a).mem = s.mem := rfl
@[simp] theorem State.raiseFault_host (f : FaultCode) (w : CmdWord) (a : Nat) : (s.raiseFault f w a).host = s.host := rfl
@[simp] theorem State.raiseFault_window (f : FaultCode) (w : CmdWord) (a : Nat) : (s.raiseFault f w a).window = s.window := rfl
@[simp] theorem State.raiseFault_draws (f : FaultCode) (w : CmdWord) (a : Nat) : (s.raiseFault f w a).draws = s.draws := rfl

@[simp] theorem State.reject_cfg : s.reject.cfg = s.cfg := rfl
@[simp] theorem State.reject_g : s.reject.g = s.g := rfl
@[simp] theorem State.reject_gValid : s.reject.gValid = s.gValid := rfl
@[simp] theorem State.reject_m : s.reject.m = s.m := rfl
@[simp] theorem State.reject_mValid : s.reject.mValid = s.mValid := rfl
@[simp] theorem State.reject_lane : s.reject.lane = s.lane := rfl
@[simp] theorem State.reject_laneSome : s.reject.laneSome = s.laneSome := rfl
@[simp] theorem State.reject_laneValid : s.reject.laneValid = s.laneValid := rfl
@[simp] theorem State.reject_anyf : s.reject.anyf = s.anyf := rfl
@[simp] theorem State.reject_anyValid : s.reject.anyValid = s.anyValid := rfl
@[simp] theorem State.reject_out : s.reject.out = s.out := rfl
@[simp] theorem State.reject_outValid : s.reject.outValid = s.outValid := rfl
@[simp] theorem State.reject_status : s.reject.status = s.status := rfl
@[simp] theorem State.reject_fcmd : s.reject.fcmd = s.fcmd := rfl
@[simp] theorem State.reject_faddr : s.reject.faddr = s.faddr := rfl
@[simp] theorem State.reject_busy : s.reject.busy = false := rfl
@[simp] theorem State.reject_rst : s.reject.rst = s.rst := rfl
@[simp] theorem State.reject_rspValid : s.reject.rspValid = true := rfl
@[simp] theorem State.reject_rspCode : s.reject.rspCode = .rejected := rfl
@[simp] theorem State.reject_memReqs : s.reject.memReqs = s.memReqs := rfl
@[simp] theorem State.reject_mem : s.reject.mem = s.mem := rfl
@[simp] theorem State.reject_host : s.reject.host = s.host := rfl
@[simp] theorem State.reject_window : s.reject.window = s.window := rfl
@[simp] theorem State.reject_draws : s.reject.draws = s.draws := rfl

@[simp] theorem State.closeWindow_cfg : s.closeWindow.cfg = s.cfg := rfl
@[simp] theorem State.closeWindow_g : s.closeWindow.g = s.g := rfl
@[simp] theorem State.closeWindow_gValid : s.closeWindow.gValid = s.gValid := rfl
@[simp] theorem State.closeWindow_m : s.closeWindow.m = s.m := rfl
@[simp] theorem State.closeWindow_mValid : s.closeWindow.mValid = s.mValid := rfl
@[simp] theorem State.closeWindow_lane : s.closeWindow.lane = s.lane := rfl
@[simp] theorem State.closeWindow_laneSome : s.closeWindow.laneSome = s.laneSome := rfl
@[simp] theorem State.closeWindow_laneValid : s.closeWindow.laneValid = s.laneValid := rfl
@[simp] theorem State.closeWindow_anyf : s.closeWindow.anyf = s.anyf := rfl
@[simp] theorem State.closeWindow_anyValid : s.closeWindow.anyValid = s.anyValid := rfl
@[simp] theorem State.closeWindow_out : s.closeWindow.out = s.out := rfl
@[simp] theorem State.closeWindow_outValid : s.closeWindow.outValid = s.outValid := rfl
@[simp] theorem State.closeWindow_status : s.closeWindow.status = s.status := rfl
@[simp] theorem State.closeWindow_fcmd : s.closeWindow.fcmd = s.fcmd := rfl
@[simp] theorem State.closeWindow_faddr : s.closeWindow.faddr = s.faddr := rfl
@[simp] theorem State.closeWindow_busy : s.closeWindow.busy = s.busy := rfl
@[simp] theorem State.closeWindow_rst : s.closeWindow.rst = s.rst := rfl
@[simp] theorem State.closeWindow_rspValid : s.closeWindow.rspValid = s.rspValid := rfl
@[simp] theorem State.closeWindow_rspCode : s.closeWindow.rspCode = s.rspCode := rfl
@[simp] theorem State.closeWindow_memReqs : s.closeWindow.memReqs = s.memReqs := rfl
@[simp] theorem State.closeWindow_mem : s.closeWindow.mem = Memory.storeAll s.mem s.window := rfl
@[simp] theorem State.closeWindow_host : s.closeWindow.host = s.host := rfl
@[simp] theorem State.closeWindow_window : s.closeWindow.window = [] := rfl
@[simp] theorem State.closeWindow_draws : s.closeWindow.draws = s.draws := rfl

@[simp] theorem State.writeM_cfg (v : Bitmask) : (s.writeM v).cfg = s.cfg := rfl
@[simp] theorem State.writeM_g (v : Bitmask) : (s.writeM v).g = s.g := rfl
@[simp] theorem State.writeM_gValid (v : Bitmask) : (s.writeM v).gValid = s.gValid := rfl
@[simp] theorem State.writeM_m (v : Bitmask) : (s.writeM v).m = v := rfl
@[simp] theorem State.writeM_mValid (v : Bitmask) : (s.writeM v).mValid = true := rfl
@[simp] theorem State.writeM_lane (v : Bitmask) : (s.writeM v).lane = s.lane := rfl
@[simp] theorem State.writeM_laneSome (v : Bitmask) : (s.writeM v).laneSome = s.laneSome := rfl
@[simp] theorem State.writeM_laneValid (v : Bitmask) : (s.writeM v).laneValid = s.laneValid := rfl
@[simp] theorem State.writeM_anyf (v : Bitmask) : (s.writeM v).anyf = s.anyf := rfl
@[simp] theorem State.writeM_anyValid (v : Bitmask) : (s.writeM v).anyValid = s.anyValid := rfl
@[simp] theorem State.writeM_out (v : Bitmask) : (s.writeM v).out = s.out := rfl
@[simp] theorem State.writeM_outValid (v : Bitmask) : (s.writeM v).outValid = s.outValid := rfl
@[simp] theorem State.writeM_status (v : Bitmask) : (s.writeM v).status = s.status := rfl
@[simp] theorem State.writeM_fcmd (v : Bitmask) : (s.writeM v).fcmd = s.fcmd := rfl
@[simp] theorem State.writeM_faddr (v : Bitmask) : (s.writeM v).faddr = s.faddr := rfl
@[simp] theorem State.writeM_busy (v : Bitmask) : (s.writeM v).busy = s.busy := rfl
@[simp] theorem State.writeM_rst (v : Bitmask) : (s.writeM v).rst = s.rst := rfl
@[simp] theorem State.writeM_rspValid (v : Bitmask) : (s.writeM v).rspValid = s.rspValid := rfl
@[simp] theorem State.writeM_rspCode (v : Bitmask) : (s.writeM v).rspCode = s.rspCode := rfl
@[simp] theorem State.writeM_memReqs (v : Bitmask) : (s.writeM v).memReqs = s.memReqs := rfl
@[simp] theorem State.writeM_mem (v : Bitmask) : (s.writeM v).mem = s.mem := rfl
@[simp] theorem State.writeM_host (v : Bitmask) : (s.writeM v).host = s.host := rfl
@[simp] theorem State.writeM_window (v : Bitmask) : (s.writeM v).window = s.window := rfl
@[simp] theorem State.writeM_draws (v : Bitmask) : (s.writeM v).draws = s.draws := rfl

@[simp] theorem State.writeOut_cfg (v : List Byte) : (s.writeOut v).cfg = s.cfg := rfl
@[simp] theorem State.writeOut_g (v : List Byte) : (s.writeOut v).g = s.g := rfl
@[simp] theorem State.writeOut_gValid (v : List Byte) : (s.writeOut v).gValid = s.gValid := rfl
@[simp] theorem State.writeOut_m (v : List Byte) : (s.writeOut v).m = s.m := rfl
@[simp] theorem State.writeOut_mValid (v : List Byte) : (s.writeOut v).mValid = s.mValid := rfl
@[simp] theorem State.writeOut_lane (v : List Byte) : (s.writeOut v).lane = s.lane := rfl
@[simp] theorem State.writeOut_laneSome (v : List Byte) : (s.writeOut v).laneSome = s.laneSome := rfl
@[simp] theorem State.writeOut_laneValid (v : List Byte) : (s.writeOut v).laneValid = s.laneValid := rfl
@[simp] theorem State.writeOut_anyf (v : List Byte) : (s.writeOut v).anyf = s.anyf := rfl
@[simp] theorem State.writeOut_anyValid (v : List Byte) : (s.writeOut v).anyValid = s.anyValid := rfl
@[simp] theorem State.writeOut_out (v : List Byte) : (s.writeOut v).out = v := rfl
@[simp] theorem State.writeOut_outValid (v : List Byte) : (s.writeOut v).outValid = true := rfl
@[simp] theorem State.writeOut_status (v : List Byte) : (s.writeOut v).status = s.status := rfl
@[simp] theorem State.writeOut_fcmd (v : List Byte) : (s.writeOut v).fcmd = s.fcmd := rfl
@[simp] theorem State.writeOut_faddr (v : List Byte) : (s.writeOut v).faddr = s.faddr := rfl
@[simp] theorem State.writeOut_busy (v : List Byte) : (s.writeOut v).busy = s.busy := rfl
@[simp] theorem State.writeOut_rst (v : List Byte) : (s.writeOut v).rst = s.rst := rfl
@[simp] theorem State.writeOut_rspValid (v : List Byte) : (s.writeOut v).rspValid = s.rspValid := rfl
@[simp] theorem State.writeOut_rspCode (v : List Byte) : (s.writeOut v).rspCode = s.rspCode := rfl
@[simp] theorem State.writeOut_memReqs (v : List Byte) : (s.writeOut v).memReqs = s.memReqs := rfl
@[simp] theorem State.writeOut_mem (v : List Byte) : (s.writeOut v).mem = s.mem := rfl
@[simp] theorem State.writeOut_host (v : List Byte) : (s.writeOut v).host = s.host := rfl
@[simp] theorem State.writeOut_window (v : List Byte) : (s.writeOut v).window = s.window := rfl
@[simp] theorem State.writeOut_draws (v : List Byte) : (s.writeOut v).draws = s.draws := rfl

@[simp] theorem State.writeLane_cfg (b : Bool) (n : Nat) : (s.writeLane b n).cfg = s.cfg := rfl
@[simp] theorem State.writeLane_g (b : Bool) (n : Nat) : (s.writeLane b n).g = s.g := rfl
@[simp] theorem State.writeLane_gValid (b : Bool) (n : Nat) : (s.writeLane b n).gValid = s.gValid := rfl
@[simp] theorem State.writeLane_m (b : Bool) (n : Nat) : (s.writeLane b n).m = s.m := rfl
@[simp] theorem State.writeLane_mValid (b : Bool) (n : Nat) : (s.writeLane b n).mValid = s.mValid := rfl
@[simp] theorem State.writeLane_lane (b : Bool) (n : Nat) : (s.writeLane b n).lane = n := rfl
@[simp] theorem State.writeLane_laneSome (b : Bool) (n : Nat) : (s.writeLane b n).laneSome = b := rfl
@[simp] theorem State.writeLane_laneValid (b : Bool) (n : Nat) : (s.writeLane b n).laneValid = true := rfl
@[simp] theorem State.writeLane_anyf (b : Bool) (n : Nat) : (s.writeLane b n).anyf = s.anyf := rfl
@[simp] theorem State.writeLane_anyValid (b : Bool) (n : Nat) : (s.writeLane b n).anyValid = s.anyValid := rfl
@[simp] theorem State.writeLane_out (b : Bool) (n : Nat) : (s.writeLane b n).out = s.out := rfl
@[simp] theorem State.writeLane_outValid (b : Bool) (n : Nat) : (s.writeLane b n).outValid = s.outValid := rfl
@[simp] theorem State.writeLane_status (b : Bool) (n : Nat) : (s.writeLane b n).status = s.status := rfl
@[simp] theorem State.writeLane_fcmd (b : Bool) (n : Nat) : (s.writeLane b n).fcmd = s.fcmd := rfl
@[simp] theorem State.writeLane_faddr (b : Bool) (n : Nat) : (s.writeLane b n).faddr = s.faddr := rfl
@[simp] theorem State.writeLane_busy (b : Bool) (n : Nat) : (s.writeLane b n).busy = s.busy := rfl
@[simp] theorem State.writeLane_rst (b : Bool) (n : Nat) : (s.writeLane b n).rst = s.rst := rfl
@[simp] theorem State.writeLane_rspValid (b : Bool) (n : Nat) : (s.writeLane b n).rspValid = s.rspValid := rfl
@[simp] theorem State.writeLane_rspCode (b : Bool) (n : Nat) : (s.writeLane b n).rspCode = s.rspCode := rfl
@[simp] theorem State.writeLane_memReqs (b : Bool) (n : Nat) : (s.writeLane b n).memReqs = s.memReqs := rfl
@[simp] theorem State.writeLane_mem (b : Bool) (n : Nat) : (s.writeLane b n).mem = s.mem := rfl
@[simp] theorem State.writeLane_host (b : Bool) (n : Nat) : (s.writeLane b n).host = s.host := rfl
@[simp] theorem State.writeLane_window (b : Bool) (n : Nat) : (s.writeLane b n).window = s.window := rfl
@[simp] theorem State.writeLane_draws (b : Bool) (n : Nat) : (s.writeLane b n).draws = s.draws := rfl

@[simp] theorem State.writeAny_cfg (b : Bool) : (s.writeAny b).cfg = s.cfg := rfl
@[simp] theorem State.writeAny_g (b : Bool) : (s.writeAny b).g = s.g := rfl
@[simp] theorem State.writeAny_gValid (b : Bool) : (s.writeAny b).gValid = s.gValid := rfl
@[simp] theorem State.writeAny_m (b : Bool) : (s.writeAny b).m = s.m := rfl
@[simp] theorem State.writeAny_mValid (b : Bool) : (s.writeAny b).mValid = s.mValid := rfl
@[simp] theorem State.writeAny_lane (b : Bool) : (s.writeAny b).lane = s.lane := rfl
@[simp] theorem State.writeAny_laneSome (b : Bool) : (s.writeAny b).laneSome = s.laneSome := rfl
@[simp] theorem State.writeAny_laneValid (b : Bool) : (s.writeAny b).laneValid = s.laneValid := rfl
@[simp] theorem State.writeAny_anyf (b : Bool) : (s.writeAny b).anyf = b := rfl
@[simp] theorem State.writeAny_anyValid (b : Bool) : (s.writeAny b).anyValid = true := rfl
@[simp] theorem State.writeAny_out (b : Bool) : (s.writeAny b).out = s.out := rfl
@[simp] theorem State.writeAny_outValid (b : Bool) : (s.writeAny b).outValid = s.outValid := rfl
@[simp] theorem State.writeAny_status (b : Bool) : (s.writeAny b).status = s.status := rfl
@[simp] theorem State.writeAny_fcmd (b : Bool) : (s.writeAny b).fcmd = s.fcmd := rfl
@[simp] theorem State.writeAny_faddr (b : Bool) : (s.writeAny b).faddr = s.faddr := rfl
@[simp] theorem State.writeAny_busy (b : Bool) : (s.writeAny b).busy = s.busy := rfl
@[simp] theorem State.writeAny_rst (b : Bool) : (s.writeAny b).rst = s.rst := rfl
@[simp] theorem State.writeAny_rspValid (b : Bool) : (s.writeAny b).rspValid = s.rspValid := rfl
@[simp] theorem State.writeAny_rspCode (b : Bool) : (s.writeAny b).rspCode = s.rspCode := rfl
@[simp] theorem State.writeAny_memReqs (b : Bool) : (s.writeAny b).memReqs = s.memReqs := rfl
@[simp] theorem State.writeAny_mem (b : Bool) : (s.writeAny b).mem = s.mem := rfl
@[simp] theorem State.writeAny_host (b : Bool) : (s.writeAny b).host = s.host := rfl
@[simp] theorem State.writeAny_window (b : Bool) : (s.writeAny b).window = s.window := rfl
@[simp] theorem State.writeAny_draws (b : Bool) : (s.writeAny b).draws = s.draws := rfl

@[simp] theorem State.requestGroup_cfg (a : Nat) : (s.requestGroup a).cfg = s.cfg := rfl
@[simp] theorem State.requestGroup_g (a : Nat) : (s.requestGroup a).g = s.g := rfl
@[simp] theorem State.requestGroup_gValid (a : Nat) : (s.requestGroup a).gValid = s.gValid := rfl
@[simp] theorem State.requestGroup_m (a : Nat) : (s.requestGroup a).m = s.m := rfl
@[simp] theorem State.requestGroup_mValid (a : Nat) : (s.requestGroup a).mValid = s.mValid := rfl
@[simp] theorem State.requestGroup_lane (a : Nat) : (s.requestGroup a).lane = s.lane := rfl
@[simp] theorem State.requestGroup_laneSome (a : Nat) : (s.requestGroup a).laneSome = s.laneSome := rfl
@[simp] theorem State.requestGroup_laneValid (a : Nat) : (s.requestGroup a).laneValid = s.laneValid := rfl
@[simp] theorem State.requestGroup_anyf (a : Nat) : (s.requestGroup a).anyf = s.anyf := rfl
@[simp] theorem State.requestGroup_anyValid (a : Nat) : (s.requestGroup a).anyValid = s.anyValid := rfl
@[simp] theorem State.requestGroup_out (a : Nat) : (s.requestGroup a).out = s.out := rfl
@[simp] theorem State.requestGroup_outValid (a : Nat) : (s.requestGroup a).outValid = s.outValid := rfl
@[simp] theorem State.requestGroup_status (a : Nat) : (s.requestGroup a).status = s.status := rfl
@[simp] theorem State.requestGroup_fcmd (a : Nat) : (s.requestGroup a).fcmd = s.fcmd := rfl
@[simp] theorem State.requestGroup_faddr (a : Nat) : (s.requestGroup a).faddr = s.faddr := rfl
@[simp] theorem State.requestGroup_busy (a : Nat) : (s.requestGroup a).busy = s.busy := rfl
@[simp] theorem State.requestGroup_rst (a : Nat) : (s.requestGroup a).rst = s.rst := rfl
@[simp] theorem State.requestGroup_rspValid (a : Nat) : (s.requestGroup a).rspValid = s.rspValid := rfl
@[simp] theorem State.requestGroup_rspCode (a : Nat) : (s.requestGroup a).rspCode = s.rspCode := rfl
@[simp] theorem State.requestGroup_memReqs (a : Nat) : (s.requestGroup a).memReqs = s.groupAddrs a := rfl
@[simp] theorem State.requestGroup_mem (a : Nat) : (s.requestGroup a).mem = s.mem := rfl
@[simp] theorem State.requestGroup_host (a : Nat) : (s.requestGroup a).host = s.host := rfl
@[simp] theorem State.requestGroup_window (a : Nat) : (s.requestGroup a).window = s.window := rfl
@[simp] theorem State.requestGroup_draws (a : Nat) : (s.requestGroup a).draws = s.draws := rfl

@[simp] theorem State.fillGroup_cfg (v : List Byte) : (s.fillGroup v).cfg = s.cfg := rfl
@[simp] theorem State.fillGroup_g (v : List Byte) : (s.fillGroup v).g = v := rfl
@[simp] theorem State.fillGroup_gValid (v : List Byte) : (s.fillGroup v).gValid = true := rfl
@[simp] theorem State.fillGroup_m (v : List Byte) : (s.fillGroup v).m = s.m := rfl
@[simp] theorem State.fillGroup_mValid (v : List Byte) : (s.fillGroup v).mValid = s.mValid := rfl
@[simp] theorem State.fillGroup_lane (v : List Byte) : (s.fillGroup v).lane = s.lane := rfl
@[simp] theorem State.fillGroup_laneSome (v : List Byte) : (s.fillGroup v).laneSome = s.laneSome := rfl
@[simp] theorem State.fillGroup_laneValid (v : List Byte) : (s.fillGroup v).laneValid = s.laneValid := rfl
@[simp] theorem State.fillGroup_anyf (v : List Byte) : (s.fillGroup v).anyf = s.anyf := rfl
@[simp] theorem State.fillGroup_anyValid (v : List Byte) : (s.fillGroup v).anyValid = s.anyValid := rfl
@[simp] theorem State.fillGroup_out (v : List Byte) : (s.fillGroup v).out = s.out := rfl
@[simp] theorem State.fillGroup_outValid (v : List Byte) : (s.fillGroup v).outValid = s.outValid := rfl
@[simp] theorem State.fillGroup_status (v : List Byte) : (s.fillGroup v).status = s.status := rfl
@[simp] theorem State.fillGroup_fcmd (v : List Byte) : (s.fillGroup v).fcmd = s.fcmd := rfl
@[simp] theorem State.fillGroup_faddr (v : List Byte) : (s.fillGroup v).faddr = s.faddr := rfl
@[simp] theorem State.fillGroup_busy (v : List Byte) : (s.fillGroup v).busy = s.busy := rfl
@[simp] theorem State.fillGroup_rst (v : List Byte) : (s.fillGroup v).rst = s.rst := rfl
@[simp] theorem State.fillGroup_rspValid (v : List Byte) : (s.fillGroup v).rspValid = s.rspValid := rfl
@[simp] theorem State.fillGroup_rspCode (v : List Byte) : (s.fillGroup v).rspCode = s.rspCode := rfl
@[simp] theorem State.fillGroup_memReqs (v : List Byte) : (s.fillGroup v).memReqs = s.memReqs := rfl
@[simp] theorem State.fillGroup_mem (v : List Byte) : (s.fillGroup v).mem = s.mem := rfl
@[simp] theorem State.fillGroup_host (v : List Byte) : (s.fillGroup v).host = s.host := rfl
@[simp] theorem State.fillGroup_window (v : List Byte) : (s.fillGroup v).window = s.window := rfl
@[simp] theorem State.fillGroup_draws (v : List Byte) : (s.fillGroup v).draws = s.draws + s.cfg.width := rfl

@[simp] theorem State.releaseRst_cfg : s.releaseRst.cfg = s.cfg := rfl
@[simp] theorem State.releaseRst_g : s.releaseRst.g = s.g := rfl
@[simp] theorem State.releaseRst_gValid : s.releaseRst.gValid = s.gValid := rfl
@[simp] theorem State.releaseRst_m : s.releaseRst.m = s.m := rfl
@[simp] theorem State.releaseRst_mValid : s.releaseRst.mValid = s.mValid := rfl
@[simp] theorem State.releaseRst_lane : s.releaseRst.lane = s.lane := rfl
@[simp] theorem State.releaseRst_laneSome : s.releaseRst.laneSome = s.laneSome := rfl
@[simp] theorem State.releaseRst_laneValid : s.releaseRst.laneValid = s.laneValid := rfl
@[simp] theorem State.releaseRst_anyf : s.releaseRst.anyf = s.anyf := rfl
@[simp] theorem State.releaseRst_anyValid : s.releaseRst.anyValid = s.anyValid := rfl
@[simp] theorem State.releaseRst_out : s.releaseRst.out = s.out := rfl
@[simp] theorem State.releaseRst_outValid : s.releaseRst.outValid = s.outValid := rfl
@[simp] theorem State.releaseRst_status : s.releaseRst.status = s.status := rfl
@[simp] theorem State.releaseRst_fcmd : s.releaseRst.fcmd = s.fcmd := rfl
@[simp] theorem State.releaseRst_faddr : s.releaseRst.faddr = s.faddr := rfl
@[simp] theorem State.releaseRst_busy : s.releaseRst.busy = s.busy := rfl
@[simp] theorem State.releaseRst_rst : s.releaseRst.rst = false := rfl
@[simp] theorem State.releaseRst_rspValid : s.releaseRst.rspValid = s.rspValid := rfl
@[simp] theorem State.releaseRst_rspCode : s.releaseRst.rspCode = s.rspCode := rfl
@[simp] theorem State.releaseRst_memReqs : s.releaseRst.memReqs = s.memReqs := rfl
@[simp] theorem State.releaseRst_mem : s.releaseRst.mem = s.mem := rfl
@[simp] theorem State.releaseRst_host : s.releaseRst.host = s.host := rfl
@[simp] theorem State.releaseRst_window : s.releaseRst.window = s.window := rfl
@[simp] theorem State.releaseRst_draws : s.releaseRst.draws = s.draws := rfl

@[simp] theorem State.assertRst_cfg : s.assertRst.cfg = s.cfg := rfl
@[simp] theorem State.assertRst_g : s.assertRst.g = List.replicate s.cfg.width 0#8 := rfl
@[simp] theorem State.assertRst_gValid : s.assertRst.gValid = false := rfl
@[simp] theorem State.assertRst_m : s.assertRst.m = 0#128 := rfl
@[simp] theorem State.assertRst_mValid : s.assertRst.mValid = false := rfl
@[simp] theorem State.assertRst_lane : s.assertRst.lane = 0 := rfl
@[simp] theorem State.assertRst_laneSome : s.assertRst.laneSome = false := rfl
@[simp] theorem State.assertRst_laneValid : s.assertRst.laneValid = false := rfl
@[simp] theorem State.assertRst_anyf : s.assertRst.anyf = false := rfl
@[simp] theorem State.assertRst_anyValid : s.assertRst.anyValid = false := rfl
@[simp] theorem State.assertRst_out : s.assertRst.out = List.replicate s.cfg.width 0#8 := rfl
@[simp] theorem State.assertRst_outValid : s.assertRst.outValid = false := rfl
@[simp] theorem State.assertRst_status : s.assertRst.status = 0x00#8 := rfl
@[simp] theorem State.assertRst_fcmd : s.assertRst.fcmd = 0x0000#16 := rfl
@[simp] theorem State.assertRst_faddr : s.assertRst.faddr = 0 := rfl
@[simp] theorem State.assertRst_busy : s.assertRst.busy = false := rfl
@[simp] theorem State.assertRst_rst : s.assertRst.rst = true := rfl
@[simp] theorem State.assertRst_rspValid : s.assertRst.rspValid = false := rfl
@[simp] theorem State.assertRst_rspCode : s.assertRst.rspCode = .ok := rfl
@[simp] theorem State.assertRst_memReqs : s.assertRst.memReqs = [] := rfl
@[simp] theorem State.assertRst_mem : s.assertRst.mem = s.mem := rfl
@[simp] theorem State.assertRst_host : s.assertRst.host = s.host := rfl
@[simp] theorem State.assertRst_window : s.assertRst.window = s.window := rfl
@[simp] theorem State.assertRst_draws : s.assertRst.draws = s.draws := rfl

/-! Views that depend on few fields. -/

@[simp] theorem State.accept_faulted (ws : List Host.Cell) : (s.accept ws).faulted = s.faulted := rfl
@[simp] theorem State.accept_gLane (ws : List Host.Cell) : (s.accept ws).gLane = s.gLane := rfl
@[simp] theorem State.accept_outLane (ws : List Host.Cell) : (s.accept ws).outLane = s.outLane := rfl
@[simp] theorem State.complete_faulted (r : RspCode) : (s.complete r).faulted = s.faulted := rfl
@[simp] theorem State.complete_gLane (r : RspCode) : (s.complete r).gLane = s.gLane := rfl
@[simp] theorem State.complete_outLane (r : RspCode) : (s.complete r).outLane = s.outLane := rfl
@[simp] theorem State.raiseFault_gLane (f : FaultCode) (w : CmdWord) (a : Nat) : (s.raiseFault f w a).gLane = s.gLane := rfl
@[simp] theorem State.raiseFault_outLane (f : FaultCode) (w : CmdWord) (a : Nat) : (s.raiseFault f w a).outLane = s.outLane := rfl
@[simp] theorem State.reject_faulted : s.reject.faulted = s.faulted := rfl
@[simp] theorem State.reject_gLane : s.reject.gLane = s.gLane := rfl
@[simp] theorem State.reject_outLane : s.reject.outLane = s.outLane := rfl
@[simp] theorem State.closeWindow_faulted : s.closeWindow.faulted = s.faulted := rfl
@[simp] theorem State.closeWindow_gLane : s.closeWindow.gLane = s.gLane := rfl
@[simp] theorem State.closeWindow_outLane : s.closeWindow.outLane = s.outLane := rfl
@[simp] theorem State.writeM_faulted (v : Bitmask) : (s.writeM v).faulted = s.faulted := rfl
@[simp] theorem State.writeM_gLane (v : Bitmask) : (s.writeM v).gLane = s.gLane := rfl
@[simp] theorem State.writeM_outLane (v : Bitmask) : (s.writeM v).outLane = s.outLane := rfl
@[simp] theorem State.writeOut_faulted (v : List Byte) : (s.writeOut v).faulted = s.faulted := rfl
@[simp] theorem State.writeOut_gLane (v : List Byte) : (s.writeOut v).gLane = s.gLane := rfl
@[simp] theorem State.writeLane_faulted (b : Bool) (n : Nat) : (s.writeLane b n).faulted = s.faulted := rfl
@[simp] theorem State.writeLane_gLane (b : Bool) (n : Nat) : (s.writeLane b n).gLane = s.gLane := rfl
@[simp] theorem State.writeLane_outLane (b : Bool) (n : Nat) : (s.writeLane b n).outLane = s.outLane := rfl
@[simp] theorem State.writeAny_faulted (b : Bool) : (s.writeAny b).faulted = s.faulted := rfl
@[simp] theorem State.writeAny_gLane (b : Bool) : (s.writeAny b).gLane = s.gLane := rfl
@[simp] theorem State.writeAny_outLane (b : Bool) : (s.writeAny b).outLane = s.outLane := rfl
@[simp] theorem State.requestGroup_faulted (a : Nat) : (s.requestGroup a).faulted = s.faulted := rfl
@[simp] theorem State.requestGroup_gLane (a : Nat) : (s.requestGroup a).gLane = s.gLane := rfl
@[simp] theorem State.requestGroup_outLane (a : Nat) : (s.requestGroup a).outLane = s.outLane := rfl
@[simp] theorem State.fillGroup_faulted (v : List Byte) : (s.fillGroup v).faulted = s.faulted := rfl
@[simp] theorem State.fillGroup_outLane (v : List Byte) : (s.fillGroup v).outLane = s.outLane := rfl
@[simp] theorem State.releaseRst_faulted : s.releaseRst.faulted = s.faulted := rfl
@[simp] theorem State.releaseRst_gLane : s.releaseRst.gLane = s.gLane := rfl
@[simp] theorem State.releaseRst_outLane : s.releaseRst.outLane = s.outLane := rfl

end Sys2Proof.Machine
end

