-- ==== Sys2Proof/Laws/Exec.lean ====
section
/-! SUPPORT. What the shared operations and `exec` can do, said once: `exec_eq` is the inversion every claim about a
command goes through. -/

namespace Sys2Proof.Machine

variable (s : State)

/-! ## The checks -/

theorem State.unlessFaulted_of_faulted {s : State} (h : s.faulted = true) (k : State) :
    s.unlessFaulted k = s.reject := by
  simp [State.unlessFaulted, h]

theorem State.unlessFaulted_of_running {s : State} (h : s.faulted = false) (k : State) : s.unlessFaulted k = k := by
  simp [State.unlessFaulted, h]

theorem State.requireGroup_of_valid {s : State} (h : s.gValid = true) (w : CmdWord) (k : State) :
    s.requireGroup w k = k := by
  simp [State.requireGroup, h]

theorem State.requireGroup_of_invalid {s : State} (h : s.gValid = false) (w : CmdWord) (k : State) :
    s.requireGroup w k = s.raiseFault .noGroup w 0 := by
  simp [State.requireGroup, h]

theorem State.requireMask_of_valid {s : State} (h : s.mValid = true) (w : CmdWord) (k : State) :
    s.requireMask w k = k := by
  simp [State.requireMask, h]

theorem State.requireMask_of_invalid {s : State} (h : s.mValid = false) (w : CmdWord) (k : State) :
    s.requireMask w k = s.raiseFault .noMask w 0 := by
  simp [State.requireMask, h]

theorem State.misaligned_eq_true (a : Nat) : s.misaligned a = true ↔ a % s.cfg.alignWidth ≠ 0 := by
  simp [State.misaligned]

theorem State.misaligned_eq_false (a : Nat) : s.misaligned a = false ↔ a % s.cfg.alignWidth = 0 := by
  simp [State.misaligned]

theorem State.pastTop_eq_true (a : Nat) :
    s.pastTop a = true ↔ 2 ^ s.cfg.addrWidth < a + s.cfg.width := by
  simp [State.pastTop]

theorem State.pastTop_eq_false (a : Nat) :
    s.pastTop a = false ↔ a + s.cfg.width ≤ 2 ^ s.cfg.addrWidth := by
  simp [State.pastTop]

/-- Every status a fault writes has FAULTED = 1 (60_exceptions.md R127). -/
@[simp] theorem State.raiseFault_faulted (f : FaultCode) (w : CmdWord) (a : Nat) :
    (s.raiseFault f w a).faulted = true := by
  rw [State.faulted, State.raiseFault_status]
  cases f <;> decide

/-! ## Reading a group -/

theorem State.groupReadable_iff (a : Nat) :
    s.groupReadable a = true ↔ ∀ i < s.cfg.width, (s.laneAnswer a i).isSome = true := by
  simp [State.groupReadable]

@[simp] theorem State.groupBytes_length (a : Nat) : (s.groupBytes a).length = s.cfg.width := by
  simp [State.groupBytes]

theorem getD_map_range {α : Type} (f : Nat → α) (d : α) {i n : Nat} (h : i < n) :
    ((List.range n).map f).getD i d = f i := by
  simp [List.getD, h]

theorem State.groupBytes_getD (a : Nat) {i : Nat} (h : i < s.cfg.width) :
    (s.groupBytes a).getD i 0#8 = (s.laneAnswer a i).getD 0#8 := getD_map_range _ _ h

theorem State.laneAnswer_of_raced {s : State} {a i : Nat} (h : s.raced (a + i) = true) :
    s.laneAnswer a i = some (Config.racedByte (s.draws + i)) := by
  simp [State.laneAnswer, State.memRead, h]

theorem State.laneAnswer_of_quiet {s : State} {a i : Nat} (h : s.raced (a + i) = false) :
    s.laneAnswer a i = Memory.lookup s.mem (a + i) := by
  simp [State.laneAnswer, State.memRead, h]

theorem State.laneAnswer_isSome (a i : Nat) :
    (s.laneAnswer a i).isSome = (s.raced (a + i) || (Memory.lookup s.mem (a + i)).isSome) := by
  cases h : s.raced (a + i)
  · simp [State.laneAnswer_of_quiet h]
  · simp [State.laneAnswer_of_raced h]

/-! ## One equation for every command -/

/-- The check a command fails outside the fault state, if it fails one (60_exceptions.md R130). -/
def failing : Instr → State → Option FaultCode
  | .load a, s =>
    if s.misaligned a then some .misaligned
    else if s.pastTop a then some .bus
    else if s.groupReadable a then none else some .bus
  | .matchByte _, s => if s.gValid then none else some .noGroup
  | .matchEmpty, s => if s.gValid then none else some .noGroup
  | .matchEod, s => if s.gValid then none else some .noGroup
  | .matchFull, s => if s.gValid then none else some .noGroup
  | .convert, s => if s.gValid then none else some .noGroup
  | .staticEmpty, _ => none
  | .lowest, s => if s.mValid then none else some .noMask
  | .removeLowest, s => if s.mValid then none else some .noMask
  | .any, s => if s.mValid then none else some .noMask

/-- The state after the requests a command makes: LOAD's, once its address has passed (20_memory.md R50 to R52). -/
def requested : Instr → State → State
  | .load a, s => if s.misaligned a || s.pastTop a then s else s.requestGroup a
  | .matchByte _, s => s
  | .matchEmpty, s => s
  | .matchEod, s => s
  | .matchFull, s => s
  | .convert, s => s
  | .staticEmpty, s => s
  | .lowest, s => s
  | .removeLowest, s => s
  | .any, s => s

/-- The register writes of a command that passes its checks (10_state.md R37). -/
def written : Instr → State → State
  | .load a, s => (s.requestGroup a).fillGroup (s.groupBytes a)
  | .matchByte b, s => s.writeM (s.cfg.enc (s.eqLane b))
  | .matchEmpty, s => s.writeM (s.cfg.enc (s.eqLane emptyByte))
  | .matchEod, s => s.writeM (s.cfg.enc s.specialLane)
  | .matchFull, s => s.writeM (s.cfg.enc (fun i => !s.specialLane i))
  | .convert, s => s.writeOut ((List.range s.cfg.width).map s.convertLane)
  | .staticEmpty, s => s.writeOut ((List.range s.cfg.width).map (fun _ => emptyByte))
  | .lowest, s => s.writeLane (laneSomeFlag s.m) (lowestLane s.cfg s.m)
  | .removeLowest, s => s.writeM (dropLowest s.cfg s.m)
  | .any, s => s.writeAny (anyFlag s.m)

/-- What FADDR receives: the LOAD address for MISALIGNED and BUS (the faults of LOAD alone), else 0. -/
def recordedAddr : Instr → Nat
  | .load a => a
  | .matchByte _ => 0
  | .matchEmpty => 0
  | .matchEod => 0
  | .matchFull => 0
  | .convert => 0
  | .staticEmpty => 0
  | .lowest => 0
  | .removeLowest => 0
  | .any => 0

/-- The state a command outside the fault state answers. -/
def answered (i : Instr) (s : State) : State :=
  match failing i s with
  | none => (written i s).complete .ok
  | some f => (requested i s).raiseFault f (encodeWord i) (recordedAddr i)

/-- `exec` in one equation: a command always answers a next state. -/
theorem exec_eq (i : Instr) (s : State) : exec i s = .next (s.unlessFaulted (answered i s)) := by
  cases i with
  | load a =>
    simp only [exec, execLoad, answered, failing, requested, written, recordedAddr]
    by_cases hm : s.misaligned a = true
    · simp [hm]
    · by_cases hp : s.pastTop a = true
      · simp [hm, hp]
      · by_cases hr : s.groupReadable a = true <;> simp [hm, hp, hr]
  | matchByte b =>
    by_cases h : s.gValid = true <;>
      simp [exec, execMatchByte, State.matchLanes, State.requireGroup, answered, failing, requested, written,
        recordedAddr, h]
  | matchEmpty =>
    by_cases h : s.gValid = true <;>
      simp [exec, execMatchEmpty, State.matchLanes, State.requireGroup, answered, failing, requested, written,
        recordedAddr, h]
  | matchEod =>
    by_cases h : s.gValid = true <;>
      simp [exec, execMatchEod, State.matchLanes, State.requireGroup, answered, failing, requested, written,
        recordedAddr, h]
  | matchFull =>
    by_cases h : s.gValid = true <;>
      simp [exec, execMatchFull, State.matchLanes, State.requireGroup, answered, failing, requested, written,
        recordedAddr, h]
  | convert =>
    by_cases h : s.gValid = true <;>
      simp [exec, execConvert, State.requireGroup, answered, failing, requested, written, recordedAddr, h]
  | staticEmpty => rfl
  | lowest =>
    by_cases h : s.mValid = true <;>
      simp [exec, execLowest, State.requireMask, answered, failing, requested, written, recordedAddr, h]
  | removeLowest =>
    by_cases h : s.mValid = true <;>
      simp [exec, execRemoveLowest, State.requireMask, answered, failing, requested, written, recordedAddr, h]
  | any =>
    by_cases h : s.mValid = true <;>
      simp [exec, execAny, State.requireMask, answered, failing, requested, written, recordedAddr, h]

/-- In the fault state every command is REJECTED (60_exceptions.md R129). -/
theorem exec_of_faulted {s : State} (h : s.faulted = true) (i : Instr) : exec i s = .next s.reject := by
  rw [exec_eq, State.unlessFaulted_of_faulted h]

/-- A command that fails no check writes its registers and completes with OK. -/
theorem exec_of_passing {s : State} {i : Instr} (h : s.faulted = false) (hp : failing i s = none) :
    exec i s = .next ((written i s).complete .ok) := by
  rw [exec_eq, State.unlessFaulted_of_running h, answered, hp]

/-- A command that fails a check takes that fault and writes nothing else. -/
theorem exec_of_failing {s : State} {i : Instr} {f : FaultCode} (h : s.faulted = false) (hp : failing i s = some f) :
    exec i s = .next ((requested i s).raiseFault f (encodeWord i) (recordedAddr i)) := by
  rw [exec_eq, State.unlessFaulted_of_running h, answered, hp]

/-- The three ways a command can end. -/
theorem exec_cases {i : Instr} {s t : State} (h : exec i s = .next t) :
    (s.faulted = true ∧ t = s.reject) ∨
    (s.faulted = false ∧ failing i s = none ∧ t = (written i s).complete .ok) ∨
    (s.faulted = false ∧ ∃ f, failing i s = some f ∧
      t = (requested i s).raiseFault f (encodeWord i) (recordedAddr i)) := by
  cases hf : s.faulted with
  | true =>
    rw [exec_of_faulted hf] at h
    cases h
    exact .inl ⟨rfl, rfl⟩
  | false =>
    cases hc : failing i s with
    | none =>
      rw [exec_of_passing hf hc] at h
      cases h
      exact .inr (.inl ⟨rfl, rfl, rfl⟩)
    | some f =>
      rw [exec_of_failing hf hc] at h
      cases h
      exact .inr (.inr ⟨rfl, f, rfl, rfl⟩)

/-! ## What no command changes -/

/-- The fields no command writes (10_state.md R37): parameters, memory, RST, the host's list and the window. -/
theorem exec_keeps {i : Instr} {s t : State} (h : exec i s = .next t) :
    t.cfg = s.cfg ∧ t.mem = s.mem ∧ t.rst = s.rst ∧ t.host = s.host ∧ t.window = s.window := by
  rcases exec_cases h with ⟨-, rfl⟩ | ⟨-, -, rfl⟩ | ⟨-, f, -, rfl⟩
  · simp
  · cases i <;> simp [written]
  · cases i with
    | load a => simp only [requested]; split <;> simp
    | _ => simp [requested]

/-- Every command completes: not busy, with a response (10_state.md R34, R35). -/
theorem exec_completes {i : Instr} {s t : State} (h : exec i s = .next t) : t.busy = false ∧ t.rspValid = true := by
  rcases exec_cases h with ⟨-, rfl⟩ | ⟨-, -, rfl⟩ | ⟨-, f, -, rfl⟩ <;> simp

end Sys2Proof.Machine
end

