-- ==== Sys2Proof/Laws/Outputs.lean ====
section
/-! SUPPORT. What the read channel and the free outputs can show (10_state.md R33, 20_memory.md R52). -/

namespace Sys2Proof.Machine

@[simp] theorem State.memRequest_valid (s : State) (n k : Nat) :
    (s.memRequest n k).memReqValid = true ↔ k < s.memReqs.length := by
  unfold State.memRequest; split <;> simp_all

/-- The address at a beat with a request is one of those requested. -/
theorem State.memRequest_addr_mem (s : State) (n : Nat) {k : Nat} (h : k < s.memReqs.length) :
    (s.memRequest n k).memReqAddr ∈ s.memReqs := by
  rw [State.memRequest, dif_pos h]; exact List.getElem_mem _

/-- A requested address is shown at some beat. -/
theorem State.memRequest_shows (s : State) (n : Nat) {x : Nat} (h : x ∈ s.memReqs) :
    ∃ k < s.memReqs.length, (s.memRequest n k).memReqAddr = x := by
  obtain ⟨i, hi, rfl⟩ := List.mem_iff_getElem.1 h
  refine ⟨(Config.readOrder n s.memReqs.length).symm ⟨i, hi⟩, Fin.is_lt _, ?_⟩
  rw [State.memRequest, dif_pos (Fin.is_lt _)]; simp

/-- Two beats with requests show different addresses, when none is requested twice. -/
theorem State.memRequest_once (s : State) (n : Nat) {j k : Nat} (hd : s.memReqs.Nodup) (hj : j < s.memReqs.length)
    (hk : k < s.memReqs.length) (h : (s.memRequest n j).memReqAddr = (s.memRequest n k).memReqAddr) : j = k := by
  simp only [State.memRequest, dif_pos hj, dif_pos hk] at h
  have := (Config.readOrder n s.memReqs.length).injective (Fin.ext ((hd.getElem_inj_iff).1 h))
  simpa using this

/-- MEM_REQ_ADDR between requests fits its ADDR_WIDTH bits. -/
theorem State.idleMemReqAddr_lt (s : State) (n : Nat) : s.idleMemReqAddr n < 2 ^ s.cfg.addrWidth :=
  Nat.mod_lt _ (Nat.two_pow_pos _)

/-- The code of a response is 0, 1 or 2. -/
theorem RspCode.code_ne_three (r : RspCode) : r.code ≠ 3#2 := by cases r <;> decide

end Sys2Proof.Machine
end

