-- ==== Sys2Proof/Laws/PerInstr.lean ====
section
/-! SUPPORT. Statements about every command as text: the format of its words (30_encoding.md R65). -/

namespace Sys2Proof.Laws.Format

/-- The command's word has RSV 0, its own opcode, and an immediate only for MATCH_BYTE; CMD_ADDR is driven only by LOAD
(30_encoding.md R65, R66, R75). -/
def Statement (i : Instr) : Prop :=
  rsvField (encodeWord i) = 0#4 ∧ opcField (encodeWord i) = i.opc ∧ immField (encodeWord i) = i.imm ∧
    (immField (encodeWord i) = 0#8 ∨ ∃ b, i = .matchByte b) ∧ (encodeAddr i = 0 ∨ ∃ a, i = .load a)

theorem load (a : Nat) : Statement (.load a) := by simp [Statement, Instr.imm]

theorem matchByte (b : Byte) : Statement (.matchByte b) := by simp [Statement, encodeAddr]

theorem matchEmpty : Statement .matchEmpty := by simp [Statement, encodeAddr, Instr.imm]

theorem matchEod : Statement .matchEod := by simp [Statement, encodeAddr, Instr.imm]

theorem matchFull : Statement .matchFull := by simp [Statement, encodeAddr, Instr.imm]

theorem convert : Statement .convert := by simp [Statement, encodeAddr, Instr.imm]

theorem staticEmpty : Statement .staticEmpty := by simp [Statement, encodeAddr, Instr.imm]

theorem lowest : Statement .lowest := by simp [Statement, encodeAddr, Instr.imm]

theorem removeLowest : Statement .removeLowest := by simp [Statement, encodeAddr, Instr.imm]

theorem any : Statement .any := by simp [Statement, encodeAddr, Instr.imm]

end Sys2Proof.Laws.Format
end

