-- ==== Sys2Proof/Laws/Step.lean ====
section
/-! SUPPORT. What one step can do, said once (`step_cases`), and the memory part of the invariant. -/

namespace Sys2Proof.Machine

/-- The window's writes lie in the address space exactly when no first one lies outside. -/
theorem State.firstOutside_eq_none (s : State) (ws : List Host.Cell) :
    s.firstOutside ws = none ↔ ∀ w ∈ ws, w.1 < 2 ^ s.cfg.addrWidth := by
  simp [State.firstOutside, State.inSpace]

/-- The state a command is run in: the host's action taken from its list, the command accepted. -/
def running (s : State) (during : List Host.Cell) (rest : List HostEvent) : State :=
  State.accept { s with host := rest } during

@[simp] theorem running_cfg (s : State) (ws : List Host.Cell) (rest : List HostEvent) :
    (running s ws rest).cfg = s.cfg := rfl

@[simp] theorem running_g (s : State) (ws : List Host.Cell) (rest : List HostEvent) :
    (running s ws rest).g = s.g := rfl

@[simp] theorem running_gValid (s : State) (ws : List Host.Cell) (rest : List HostEvent) :
    (running s ws rest).gValid = s.gValid := rfl

@[simp] theorem running_m (s : State) (ws : List Host.Cell) (rest : List HostEvent) :
    (running s ws rest).m = s.m := rfl

@[simp] theorem running_mValid (s : State) (ws : List Host.Cell) (rest : List HostEvent) :
    (running s ws rest).mValid = s.mValid := rfl

@[simp] theorem running_lane (s : State) (ws : List Host.Cell) (rest : List HostEvent) :
    (running s ws rest).lane = s.lane := rfl

@[simp] theorem running_laneSome (s : State) (ws : List Host.Cell) (rest : List HostEvent) :
    (running s ws rest).laneSome = s.laneSome := rfl

@[simp] theorem running_laneValid (s : State) (ws : List Host.Cell) (rest : List HostEvent) :
    (running s ws rest).laneValid = s.laneValid := rfl

@[simp] theorem running_anyf (s : State) (ws : List Host.Cell) (rest : List HostEvent) :
    (running s ws rest).anyf = s.anyf := rfl

@[simp] theorem running_anyValid (s : State) (ws : List Host.Cell) (rest : List HostEvent) :
    (running s ws rest).anyValid = s.anyValid := rfl

@[simp] theorem running_out (s : State) (ws : List Host.Cell) (rest : List HostEvent) :
    (running s ws rest).out = s.out := rfl

@[simp] theorem running_outValid (s : State) (ws : List Host.Cell) (rest : List HostEvent) :
    (running s ws rest).outValid = s.outValid := rfl

@[simp] theorem running_status (s : State) (ws : List Host.Cell) (rest : List HostEvent) :
    (running s ws rest).status = s.status := rfl

@[simp] theorem running_fcmd (s : State) (ws : List Host.Cell) (rest : List HostEvent) :
    (running s ws rest).fcmd = s.fcmd := rfl

@[simp] theorem running_faddr (s : State) (ws : List Host.Cell) (rest : List HostEvent) :
    (running s ws rest).faddr = s.faddr := rfl

@[simp] theorem running_busy (s : State) (ws : List Host.Cell) (rest : List HostEvent) :
    (running s ws rest).busy = true := rfl

@[simp] theorem running_rst (s : State) (ws : List Host.Cell) (rest : List HostEvent) :
    (running s ws rest).rst = s.rst := rfl

@[simp] theorem running_rspValid (s : State) (ws : List Host.Cell) (rest : List HostEvent) :
    (running s ws rest).rspValid = false := rfl

@[simp] theorem running_rspCode (s : State) (ws : List Host.Cell) (rest : List HostEvent) :
    (running s ws rest).rspCode = s.rspCode := rfl

@[simp] theorem running_memReqs (s : State) (ws : List Host.Cell) (rest : List HostEvent) :
    (running s ws rest).memReqs = [] := rfl

@[simp] theorem running_mem (s : State) (ws : List Host.Cell) (rest : List HostEvent) :
    (running s ws rest).mem = s.mem := rfl

@[simp] theorem running_host (s : State) (ws : List Host.Cell) (rest : List HostEvent) :
    (running s ws rest).host = rest := rfl

@[simp] theorem running_window (s : State) (ws : List Host.Cell) (rest : List HostEvent) :
    (running s ws rest).window = ws := rfl

@[simp] theorem running_draws (s : State) (ws : List Host.Cell) (rest : List HostEvent) :
    (running s ws rest).draws = s.draws := rfl

@[simp] theorem running_faulted (s : State) (ws : List Host.Cell) (rest : List HostEvent) :
    (running s ws rest).faulted = s.faulted := rfl

/-- An accepted command that decodes to a well-formed instruction is run by `exec`. -/
theorem step_of_command {s : State} {word : CmdWord} {addr : Nat} {during : List Host.Cell} {rest : List HostEvent}
    {i : Instr} (hh : s.host = .command word addr during false :: rest) (hr : s.cmdReady = true)
    (hw : ∀ w ∈ during, w.1 < 2 ^ s.cfg.addrWidth) (hd : decode word addr = .ok i) (hi : i.wf s.cfg = true) :
    step s = andThen (exec i (running s during rest)) State.closeWindow := by
  have ho : State.firstOutside { s with host := rest } during = none := (State.firstOutside_eq_none _ _).2 hw
  have hr' : State.cmdReady { s with host := rest } = true := hr
  simp only [step, hh, presentCommand, ho, hr', runCommand, hd, hi, running]
  rfl

/-- An accepted illegal word faults ILLEGAL, or is REJECTED in the fault state. -/
theorem step_of_illegal {s : State} {word : CmdWord} {addr : Nat} {during : List Host.Cell} {rest : List HostEvent}
    {e : DecodeError} (hh : s.host = .command word addr during false :: rest) (hr : s.cmdReady = true)
    (hw : ∀ w ∈ during, w.1 < 2 ^ s.cfg.addrWidth) (hd : decode word addr = .error e) :
    step s = .next ((running s during rest).illegalCommand word).closeWindow := by
  have ho : State.firstOutside { s with host := rest } during = none := (State.firstOutside_eq_none _ _).2 hw
  have hr' : State.cmdReady { s with host := rest } = true := hr
  simp only [step, hh, presentCommand, ho, hr', runCommand, hd, running]
  rfl

/-- Everything a step that answers a next state can have done. -/
theorem step_cases {s t : State} (h : step s = .next t) :
    (s.host = [] ∧ t = s) ∨
    (∃ a b rest, s.host = .store a b :: rest ∧ a < 2 ^ s.cfg.addrWidth ∧
      t = { s with host := rest, mem := Memory.store s.mem a b }) ∨
    (∃ a rest, s.host = .unmap a :: rest ∧ a < 2 ^ s.cfg.addrWidth ∧
      t = { s with host := rest, mem := Memory.erase s.mem a }) ∨
    (∃ level rest, s.host = .rst level :: rest ∧ t = State.driveRst { s with host := rest } level) ∨
    (∃ word addr during abort rest, s.host = .command word addr during abort :: rest ∧
      (∀ w ∈ during, w.1 < 2 ^ s.cfg.addrWidth) ∧
      ((s.cmdReady = false ∧ t = State.notAccepted { s with host := rest } during abort) ∨
       (s.cmdReady = true ∧ abort = true ∧ t = State.abandon { s with host := rest } during) ∨
       (s.cmdReady = true ∧ abort = false ∧ (∃ e, decode word addr = .error e) ∧
         t = ((running s during rest).illegalCommand word).closeWindow) ∨
       (s.cmdReady = true ∧ abort = false ∧ ∃ i u, decode word addr = .ok i ∧ i.wf s.cfg = true ∧
         exec i (running s during rest) = .next u ∧ t = u.closeWindow))) := by
  cases hh : s.host with
  | nil =>
    simp only [step, hh] at h
    cases h
    exact .inl ⟨rfl, rfl⟩
  | cons e rest =>
    cases e with
    | store a b =>
      simp only [step, hh, State.hostStore] at h
      split at h
      · next hs =>
        cases h
        exact .inr (.inl ⟨a, b, rest, rfl, by simpa [State.inSpace] using hs, rfl⟩)
      · cases h
    | unmap a =>
      simp only [step, hh, State.hostUnmap] at h
      split at h
      · next hs =>
        cases h
        exact .inr (.inr (.inl ⟨a, rest, rfl, by simpa [State.inSpace] using hs, rfl⟩))
      · cases h
    | rst level =>
      simp only [step, hh] at h
      cases h
      exact .inr (.inr (.inr (.inl ⟨level, rest, rfl, rfl⟩)))
    | command word addr during abort =>
      refine .inr (.inr (.inr (.inr ⟨word, addr, during, abort, rest, rfl, ?_⟩)))
      simp only [step, hh, presentCommand] at h
      split at h
      · cases h
      · next ho =>
        refine ⟨(State.firstOutside_eq_none { s with host := rest } during).1 ho, ?_⟩
        have hready : State.cmdReady { s with host := rest } = s.cmdReady := rfl
        rw [hready] at h
        cases hr : s.cmdReady with
        | false =>
          simp only [hr] at h
          cases h
          exact .inl ⟨rfl, rfl⟩
        | true =>
          cases abort with
          | true =>
            simp only [hr] at h
            cases h
            exact .inr (.inl ⟨rfl, rfl, rfl⟩)
          | false =>
            simp only [hr, runCommand] at h
            cases hd : decode word addr with
            | error e =>
              simp only [hd] at h
              cases h
              exact .inr (.inr (.inl ⟨rfl, rfl, ⟨e, rfl⟩, rfl⟩))
            | ok i =>
              simp only [hd] at h
              cases hi : i.wf s.cfg with
              | false => simp [hi] at h
              | true =>
                cases hx : exec i (running s during rest) with
                | next u =>
                  refine .inr (.inr (.inr ⟨rfl, rfl, i, u, rfl, hi, hx, ?_⟩))
                  simp only [running] at hx
                  simp [hi, hx, andThen] at h
                  exact h.symm
                | fault r => rw [exec_eq] at hx; cases hx
                | refused r => rw [exec_eq] at hx; cases hx

/-- Asserting RST again changes nothing (70_reset_and_hazards.md R150). -/
theorem State.assertRst_resets (s : State) : s.assertRst.assertRst = s.assertRst := rfl

/-- The memory after writes stays canonical and inside the address space. -/
theorem storeAll_keeps {mem : List Host.Cell} {n : Nat} {ws : List Host.Cell} (hc : Memory.wf mem = true)
    (hm : ∀ cell ∈ mem, cell.1 < n) (hw : ∀ w ∈ ws, w.1 < n) :
    Memory.wf (Memory.storeAll mem ws) = true ∧ ∀ cell ∈ Memory.storeAll mem ws, cell.1 < n :=
  ⟨Memory.storeAll_wf hc ws, fun cell hcell => (Memory.mem_storeAll hcell).elim (hw cell) (hm cell)⟩

/-- The memory of the reset state has the canonical form. -/
theorem reset_mem_wf : Memory.wf State.reset.mem = true := rfl

end Sys2Proof.Machine
end

