-- ==== Sys2Proof/Laws/Visible.lean ====
section
/-! SUPPORT. When two states differ at most in registers hidden behind valid bits, field by field. -/

namespace Sys2Proof.Machine

/-- A field behind a valid bit agrees once it is replaced where hidden, exactly when it agrees where shown. -/
theorem hidden_eq_iff {α : Type} {b c : Bool} {x y d : α} (h : b = c) :
    ((if b = true then x else d) = if c = true then y else d) ↔ (b = true → x = y) := by
  subst h
  cases b <;> simp

/-- `SameVisible` field by field. -/
theorem State.sameVisible_iff (s t : State) : s.SameVisible t ↔
    s.cfg = t.cfg ∧ s.gValid = t.gValid ∧ s.mValid = t.mValid ∧ s.laneValid = t.laneValid ∧
    s.anyValid = t.anyValid ∧ s.outValid = t.outValid ∧ s.rspValid = t.rspValid ∧
    (s.gValid = true → s.g = t.g) ∧ (s.mValid = true → s.m = t.m) ∧
    (s.laneValid = true → s.lane = t.lane ∧ s.laneSome = t.laneSome) ∧
    (s.anyValid = true → s.anyf = t.anyf) ∧ (s.outValid = true → s.out = t.out) ∧
    (s.rspValid = true → s.rspCode = t.rspCode) ∧
    s.status = t.status ∧ s.fcmd = t.fcmd ∧ s.faddr = t.faddr ∧ s.busy = t.busy ∧ s.rst = t.rst ∧
    s.memReqs = t.memReqs ∧ s.mem = t.mem ∧ s.host = t.host ∧ s.window = t.window ∧ s.draws = t.draws := by
  unfold State.SameVisible State.visible
  rw [State.mk.injEq]
  constructor
  · rintro ⟨h1, h2, h3, h4, h5, h6, h7, h8, h9, h10, h11, h12, h13, h14, h15, h16, h17, h18, h19, h20, h21, h22,
      h23, h24⟩
    exact ⟨h1, h3, h5, h8, h10, h12, h18, (hidden_eq_iff h3).1 h2, (hidden_eq_iff h5).1 h4,
      fun h => ⟨(hidden_eq_iff h8).1 h6 h, (hidden_eq_iff h8).1 h7 h⟩, (hidden_eq_iff h10).1 h9,
      (hidden_eq_iff h12).1 h11, (hidden_eq_iff h18).1 h19, h13, h14, h15, h16, h17, h20, h21, h22, h23, h24⟩
  · rintro ⟨h1, h3, h5, h8, h10, h12, h18, h2, h4, h6, h9, h11, h19, h13, h14, h15, h16, h17, h20, h21, h22, h23,
      h24⟩
    exact ⟨h1, (hidden_eq_iff h3).2 h2, h3, (hidden_eq_iff h5).2 h4, h5, (hidden_eq_iff h8).2 fun h => (h6 h).1,
      (hidden_eq_iff h8).2 fun h => (h6 h).2, h8, (hidden_eq_iff h10).2 h9, h10, (hidden_eq_iff h12).2 h11, h12,
      h13, h14, h15, h16, h17, h18, (hidden_eq_iff h18).2 h19, h20, h21, h22, h23, h24⟩

end Sys2Proof.Machine
end

