-- ==== Sys2Proof/Tests/Slice0.lean ====
section
/-! SUPPORT. The model's own tests: expected results from spec/95_test_vectors.md and the worked examples of the rules;
and, for every statement with hypotheses, a state and operands that meet them. -/

namespace Sys2Proof.Tests

open Sys2Proof.Machine Sys2Proof.Claims

/-! ## Ill-formed terms are refused -/

theorem test_wf_refuses_wide_address :
    Instr.wf Config.hwDefault (.load (2 ^ 64)) = false ∧ Instr.wf Config.hwDefault (.load (2 ^ 64 - 1)) = true := by
  decide

theorem test_config_wf_refuses :
    Config.hwDefault.wf = true ∧ Config.fbDefault.wf = true ∧ { Config.hwDefault with alignWidth := 3 }.wf = false ∧
    { Config.fbDefault with alignWidth := 16 }.wf = false ∧ { Config.hwDefault with deleted := 0x7F#8 }.wf = false ∧
    { Config.hwDefault with deleted := 0xFF#8 }.wf = false := by
  decide

/-! ## Decoding, words written out bit by bit from 30_encoding.md R65 and R68: RSV OPC IMM8 -/

theorem test_decode_load : decode 0b0000000100000000#16 0x1000 = .ok (.load 0x1000) := by rfl

theorem test_decode_match_byte : decode 0b0000001000010010#16 0 = .ok (.matchByte 0b00010010#8) := by rfl

theorem test_decode_match_empty : decode 0b0000001100000000#16 0 = .ok .matchEmpty := by rfl

theorem test_decode_match_eod : decode 0b0000010000000000#16 0 = .ok .matchEod := by rfl

theorem test_decode_match_full : decode 0b0000010100000000#16 0 = .ok .matchFull := by rfl

theorem test_decode_convert : decode 0b0000011000000000#16 0 = .ok .convert := by rfl

theorem test_decode_static_empty : decode 0b0000011100000000#16 0 = .ok .staticEmpty := by rfl

theorem test_decode_lowest : decode 0b0000100000000000#16 0 = .ok .lowest := by rfl

theorem test_decode_remove_lowest : decode 0b0000100100000000#16 0 = .ok .removeLowest := by rfl

theorem test_decode_any : decode 0b0000101000000000#16 0xFFFF = .ok .any := by rfl

/-- 95_test_vectors.md section 2.1, the illegal rows. -/
theorem test_decode_illegal :
    decode 0x0000#16 0 = .error (.noSuchOpcode 0#4) ∧ decode 0x0101#16 0 = .error (.strayImmediate 1#8) ∧
    decode 0x0301#16 0 = .error (.strayImmediate 1#8) ∧ decode 0x09FF#16 0 = .error (.strayImmediate 0xFF#8) ∧
    decode 0x0B00#16 0 = .error (.noSuchOpcode 0xB#4) ∧ decode 0x0F00#16 0 = .error (.noSuchOpcode 0xF#4) ∧
    decode 0x1100#16 0 = .error (.reservedBits 1#4) ∧ decode 0x8212#16 0 = .error (.reservedBits 8#4) := by
  refine ⟨rfl, rfl, rfl, rfl, rfl, rfl, rfl, rfl⟩

/-- 30_encoding.md R74, the worked examples. -/
theorem test_encode_examples :
    encode (.matchByte 0x12#8) = (0x0212#16, 0) ∧ encode (.matchByte emptyByte) = (0x02FF#16, 0) ∧
    encode (.load 0x1000) = (0x0100#16, 0x1000) ∧ encode .any = (0x0A00#16, 0) := by
  decide

/-! ## Parameters -/

/-- 00_scope.md R8 and W8: BITMASK_MASK of HW, of FB and of FB with WORD_BYTES = 4; LANE_BITS. -/
theorem test_bitmask_mask :
    Config.hwDefault.bitmaskMask = 0x80808080808080808080808080808080#128 ∧
    Config.fbDefault.bitmaskMask = 0xFF#128 ∧
    { Config.fbDefault with variant := .fb .four }.bitmaskMask = 0xF#128 ∧
    Config.hwDefault.laneBits = 4 ∧ Config.fbDefault.laneBits = 3 := by
  decide

/-! ## The assembler -/

/-- 30_encoding.md R73 to R77. -/
theorem test_assemble_lines :
    assembleLine Config.hwDefault ['L', 'O', 'A', 'D', ' ', '0', 'x', '1', '0', '0', '0', ' ', ';', 'g'] =
      .ok [(0x0100#16, 0x1000)] ∧
    assembleLine Config.hwDefault
        ['M', 'A', 'T', 'C', 'H', '_', 'B', 'Y', 'T', 'E', ' ', 'E', 'M', 'P', 'T', 'Y'] = .ok [(0x02FF#16, 0)] ∧
    assembleLine Config.hwDefault ['M', 'A', 'T', 'C', 'H', '_', 'D', 'E', 'L', 'E', 'T', 'E', 'D'] =
      .ok [(0x0280#16, 0)] ∧
    assembleLine Config.hwDefault ['N', 'E', 'X', 'T'] = .ok [(0x0800#16, 0), (0x0900#16, 0)] := by
  refine ⟨rfl, rfl, rfl, rfl⟩

/-- 30_encoding.md R73, R77: a byte above 255 and an h2 above 0x7F are errors; decimal numbers are read. -/
theorem test_assemble_errors :
    assembleLine Config.hwDefault ['M', 'A', 'T', 'C', 'H', '_', 'B', 'Y', 'T', 'E', ' ', '2', '5', '6'] =
      .error (.byteOutOfRange 256) ∧
    assembleLine Config.hwDefault ['M', 'A', 'T', 'C', 'H', '_', 'H', '2', ' ', '1', '2', '7'] = .ok [(0x027F#16, 0)] ∧
    assembleLine Config.hwDefault ['M', 'A', 'T', 'C', 'H', '_', 'H', '2', ' ', '1', '2', '8'] =
      .error (.h2OutOfRange 128) ∧
    assembleLine Config.hwDefault ['A', 'N', 'Y', ' ', '0'] = .error .badOperandCount ∧
    assembleLine Config.hwDefault [' ', ';', 'x'] = .ok [] := by
  refine ⟨rfl, rfl, rfl, rfl, rfl⟩

/-! ## States for the tests -/

/-- Group A of 95_test_vectors.md. -/
def groupA : List Byte :=
  [0x12#8, 0xFF#8, 0x80#8, 0x12#8, 0x7F#8, 0xFF#8, 0x00#8, 0x35#8,
   0x80#8, 0x12#8, 0x01#8, 0xFF#8, 0x5A#8, 0x12#8, 0x80#8, 0x00#8]

/-- Group B of 95_test_vectors.md (FB, non-canonical bytes). -/
def groupB : List Byte := [0x90#8, 0xFF#8, 0x80#8, 0x00#8, 0xFE#8, 0x7F#8, 0x81#8, 0x12#8]

/-- Memory with bytes from an address on. -/
def memAt (a : Nat) (bytes : List Byte) : List Host.Cell := (List.range bytes.length).map (fun i => (a + i, bytes.getD i 0#8))

/-- HW with A in memory at 0x1000 and nothing loaded. -/
def hwMem : State := { State.reset with mem := memAt 0x1000 groupA }

/-- HW with group A loaded. -/
def hwA : State := { hwMem with g := groupA, gValid := true }

/-- FB, WORD_BYTES = 8, with A's first eight bytes loaded. -/
def fbA : State := { State.resetFor Config.fbDefault with g := groupA.take 8, gValid := true }

/-- FB with group B loaded. -/
def fbB : State := { fbA with g := groupB }

/-- HW with a bitmask. -/
def hwM (m : Bitmask) : State := { hwA with m := m, mValid := true }

/-- FB with a bitmask. -/
def fbM (m : Bitmask) : State := { fbA with m := m, mValid := true }

/-- HW with ADDR_WIDTH = 16 and ALIGN_WIDTH = 8. -/
def hwSmall : State :=
  { State.resetFor { Config.hwDefault with addrWidth := 16, alignWidth := 8 } with mem := memAt 0xFFF0 groupA }

/-- HW in the fault state, after NO_GROUP by MATCH_EMPTY. -/
def hwFaulted : State := { hwA with status := 0x09#8, fcmd := 0x0300#16 }

/-- The answer of a command. -/
def after (i : Instr) (s : State) : State :=
  match exec i s with
  | .next t => t
  | _ => s

/-- The answer of a step. -/
def stepped (s : State) : State :=
  match step s with
  | .next t => t
  | _ => s

/-- A command ahead, with writes in its window. -/
def command (s : State) (word : CmdWord) (addr : Nat) (during : List Host.Cell) : State :=
  { s with host := [.command word addr during false] }

/-! ## Worked examples, one step each -/

/-- D-LOAD-1, and the requests of 20_memory.md R52. -/
theorem test_load_group : (after (.load 0x1000) hwMem).g = groupA ∧ (after (.load 0x1000) hwMem).gValid = true ∧
    (after (.load 0x1000) hwMem).memReqs.length = 16 := by decide

/-- D-LOAD-2: misaligned, nothing requested; D-LOAD-4: past the top; D-LOAD-5: the last group is in range; D-LOAD-6: a
byte answers an error. -/
theorem test_load_faults :
    ((after (.load 0x1008) hwMem).status, (after (.load 0x1008) hwMem).faddr, (after (.load 0x1008) hwMem).memReqs) =
      (0x05#8, 0x1008, []) ∧
    ((after (.load 0xFFF8) hwSmall).status, (after (.load 0xFFF8) hwSmall).memReqs) = (0x07#8, []) ∧
    (after (.load 0xFFF0) hwSmall).rspCode = .ok ∧
    ((after (.load 0x1000) { hwMem with mem := Memory.erase hwMem.mem 0x100C }).status,
      (after (.load 0x1000) { hwMem with mem := Memory.erase hwMem.mem 0x100C }).faddr) = (0x07#8, 0x1000) := by
  decide

/-- D-LOAD-9: a byte written in the window is free, every other lane is memory's; the write then lands. -/
theorem test_load_raced :
    (stepped (command hwMem 0x0100#16 0x1000 [(0x1003, 0xAA#8)])).gLane 2 = 0x80#8 ∧
    (stepped (command hwMem 0x0100#16 0x1000 [(0x1003, 0xAA#8)])).gLane 3 = Config.racedByte 3 ∧
    Memory.lookup (stepped (command hwMem 0x0100#16 0x1000 [(0x1003, 0xAA#8)])).mem 0x1003 = some 0xAA#8 := by
  refine ⟨rfl, rfl, rfl⟩

/-- D-MATCH-1, D-MATCH-12. -/
theorem test_match_byte : (after (.matchByte 0x12#8) hwA).m = 0x00008000000080000000000080000080#128 ∧
    (after (.matchByte 0x12#8) fbA).m = 0x09#128 := by decide

/-- D-MATCH-6, D-MATCH-10: MATCH_DELETED. -/
theorem test_match_deleted : (after (.matchByte 0x80#8) hwA).m = 0x00800000000000800000000000800000#128 ∧
    (after (.matchByte 0x80#8) fbB).m = 0x04#128 := by decide

/-- D-MATCH-5, D-MATCH-10. -/
theorem test_match_empty : (after .matchEmpty hwA).m = 0x00000000800000000000800000008000#128 ∧
    (after .matchEmpty fbB).m = 0x02#128 := by decide

/-- D-MATCH-7, D-MATCH-9 (the non-canonical bytes match). -/
theorem test_match_eod : (after .matchEod hwA).m = 0x00800000800000800000800000808000#128 ∧
    (after .matchEod fbB).m = 0x57#128 := by decide

/-- D-MATCH-8, D-MATCH-11. -/
theorem test_match_full : (after .matchFull hwA).m = 0x80008080008080008080008080000080#128 ∧
    (after .matchFull fbB).m = 0xA8#128 := by decide

/-- D-MATCH-22. -/
theorem test_match_without_group : ((after .matchEod hwMem).status, (after .matchEod hwMem).fcmd,
    (after .matchEod hwMem).faddr, (after .matchEod hwMem).mValid) = (0x09#8, 0x0400#16, 0, false) := by decide

/-- D-CONV-1, as the bits of OUT_BYTES. -/
theorem test_convert : packBytes (after .convert hwA).out = 0x80FF8080FF8080FF8080FF8080FFFF80#128 := by decide

/-- D-CONV-4, D-CONV-5. -/
theorem test_convert_bytes :
    (after .convert fbB).out = [0xFF#8, 0xFF#8, 0xFF#8, 0x80#8, 0xFF#8, 0x80#8, 0xFF#8, 0x80#8] ∧
    ((after .convert { hwA with cfg := { hwA.cfg with deleted := 0xFE#8 } }).out.take 4) =
      [0xFE#8, 0xFF#8, 0xFF#8, 0xFE#8] := by decide

/-- D-SE-1, D-SE-2. -/
theorem test_static_empty : (after .staticEmpty State.reset).out = List.replicate 16 0xFF#8 ∧
    (after .staticEmpty fbA).out = List.replicate 8 0xFF#8 ∧ (after .staticEmpty State.reset).outValid = true := by decide

/-- D-BM-2, D-BM-3, D-BM-5. -/
theorem test_lowest : (after .lowest (hwM 0x00000000000000008000800000800000#128)).lane = 2 ∧
    (after .lowest (hwM 0x80000000000000000000000000000000#128)).lane = 15 ∧
    (after .lowest (fbM 0x80#128)).lane = 7 := by decide

/-- D-BM-1, D-BM-13. -/
theorem test_lowest_none : ((after .lowest (hwM 0#128)).laneSome, (after .lowest (hwM 0#128)).lane,
      (after .lowest (hwM 0#128)).laneValid) = (false, 0, true) ∧
    ((after .lowest hwA).status, (after .lowest hwA).fcmd, (after .lowest hwA).laneValid) =
      (0x0B#8, 0x0800#16, false) := by decide

/-- D-BM-7, D-BM-10. -/
theorem test_remove_lowest : (after .removeLowest (hwM 0x80808080808080808080808080808080#128)).m =
      0x80808080808080808080808080808000#128 ∧ (after .removeLowest (fbM 0xA4#128)).m = 0xA0#128 := by decide

/-- D-BM-6, D-BM-8, D-BM-9. -/
theorem test_remove_lowest_edges : (after .removeLowest (hwM 0#128)).m = 0#128 ∧
    (after .removeLowest (fbM 0xFF#128)).m = 0xFE#128 ∧
    (after .removeLowest (hwM 0x80000000000000000000000000000000#128)).m = 0#128 := by decide

/-- D-BM-11, D-BM-12. -/
theorem test_any : (after .any (hwM 0#128)).anyf = false ∧
    (after .any (hwM 0x80000000000000000000000000000000#128)).anyf = true := by decide

/-- D-F-7: ANY ignores CMD_ADDR and faults NO_MASK. -/
theorem test_any_ignores_address : ((stepped (command State.reset 0x0A00#16 0xFFFF [])).status,
    (stepped (command State.reset 0x0A00#16 0xFFFF [])).faddr) = (0x0B#8, 0) := by decide

/-- W4: iteration over lanes 2, 5, 7. -/
theorem test_iterate : iterateLanes 9 (hwM 0x00000000000000008000800000800000#128) = [2, 5, 7] ∧
    iterateLanes 9 (fbM 0xA4#128) = [2, 5, 7] := by decide

/-- D-F-1, D-F-2. -/
theorem test_illegal : ((stepped (command State.reset 0x0B00#16 0 [])).status,
      (stepped (command State.reset 0x0B00#16 0 [])).fcmd) = (0x03#8, 0x0B00#16) ∧
    ((stepped (command State.reset 0x0101#16 0x1008 [])).status,
      (stepped (command State.reset 0x0101#16 0x1008 [])).faddr) = (0x03#8, 0) := by decide

/-- D-F-3, D-F-4, D-LOAD-10. -/
theorem test_priority :
    (after (.load 0xFFF8) { hwSmall with cfg := { hwSmall.cfg with alignWidth := 16 } }).status = 0x05#8 ∧
    ((stepped (command hwFaulted 0x0B00#16 0 [])).status, (stepped (command hwFaulted 0x0B00#16 0 [])).rspCode) =
      (0x09#8, .rejected) ∧
    (after (.load 0x1000) hwFaulted).memReqs = [] := by decide

/-- D-F-5, D-F-6: reset in the fault state, and in a LOAD's window. -/
theorem test_reset : ((stepped { hwFaulted with host := [.rst true] }).status,
      (stepped { hwFaulted with host := [.rst true] }).gValid,
      (stepped { hwFaulted with host := [.rst true] }).cmdReady) = (0x00#8, false, false) ∧
    ((stepped { hwMem with host := [.command 0x0100#16 0x1000 [] true] }).gValid,
      (stepped { hwMem with host := [.command 0x0100#16 0x1000 [] true] }).rspValid) = (false, false) := by decide

/-- The reset machine idles, and its fetch word runs. -/
theorem test_fetch_word : decodeTableWord 16 0x0700 = some .staticEmpty ∧ step State.reset = .next State.reset ∧
    (stepped (State.reset.withFetchWord 16 0x0700)).outValid = true := by
  refine ⟨rfl, rfl, by decide⟩

/-- 10_state.md R32, R36: the configuration outputs, and an output with its valid bit 0 is free. -/
theorem test_outputs : Config.fbDefault.ports.cfgVariant = 1#1 ∧ Config.hwDefault.ports.cfgWidth = 16#16 ∧
    (State.reset.ports 3).mOut = lowBits 128 (Config.freeMOut 3) ∧ ((hwM 0x80#128).ports 3).mOut = 0x80#128 := by
  refine ⟨rfl, rfl, rfl, rfl⟩

/-- The read channel: WIDTH requests by a LOAD (20_memory.md R52), none by MATCH_EMPTY (R45). -/
theorem test_mem_request : ((after (.load 0x1000) hwMem).memRequest 0 15).memReqValid = true ∧
    ((after (.load 0x1000) hwMem).memRequest 0 16).memReqValid = false ∧
    ((after .matchEmpty hwA).memRequest 0 0).memReqValid = false := ⟨rfl, rfl, rfl⟩

/-! ## Witnesses: hypotheses met -/

/-- Non-zero hidden registers behind valid bits that are 0. -/
def hwHidden : State := { hwMem with g := groupA, m := 0x80#128, lane := 3, laneSome := true, anyf := true, out := groupA }

theorem witness_EncodeOfDecodeIsTheWord : decode 0x02FF#16 9 = .ok (.matchByte 0xFF#8) ∧
    decode 0x0100#16 9 = .ok (.load 9) := ⟨rfl, rfl⟩

theorem witness_PseudoInstructionsExpand : (0x7F ≤ 0x7F ∧ 0x7F < 0x80) ∧
    Asm.words Config.hwDefault (.matchH2 0x7F) = .ok [(0x027F#16, 0)] ∧
    Asm.words Config.hwDefault (.matchH2 0x80) = .error (.h2OutOfRange 0x80) := ⟨by decide, rfl, rfl⟩

theorem witness_Accepts : Accepts (command hwMem 0x0100#16 0x1000 [(0x1003, 0xAA#8)]) 0x0100#16 0x1000
    [(0x1003, 0xAA#8)] [] := ⟨rfl, by decide, by decide⟩

theorem witness_StepRunsTheDecodedCommand : Accepts (command hwMem 0x0100#16 0x1000 []) 0x0100#16 0x1000 [] [] ∧
    decode 0x0100#16 0x1000 = .ok (.load 0x1000) := ⟨⟨rfl, by decide, by decide⟩, rfl⟩

theorem witness_StepRunsTheFetchWord : decodeTableWord 16 0x0100 = some (.load 0) ∧
    Instr.wf State.reset.cfg (.load 0) = true := ⟨rfl, by decide⟩

theorem witness_IllegalWordsAreExactlyThese :
    Accepts (command State.reset 0x0101#16 0x1008 []) 0x0101#16 0x1008 [] [] ∧ State.reset.faulted = false ∧
    decode 0x0101#16 0x1008 = .error (.strayImmediate 0x01#8) := ⟨⟨rfl, by decide, by decide⟩, by decide, rfl⟩

/-- One witness for each outcome: illegal, misaligned, past the top, unreadable, no fault, no group, no mask. -/
theorem witness_FirstFault :
    FirstFault (command State.reset 0x0B00#16 0 []) 0x0B00#16 0 [] (some .illegal) ∧
    FirstFault (command hwMem 0x0100#16 0x1008 []) 0x0100#16 0x1008 [] (some .misaligned) ∧
    FirstFault (command hwSmall 0x0100#16 0xFFF8 []) 0x0100#16 0xFFF8 [] (some .bus) ∧
    FirstFault (command hwMem 0x0100#16 0x2000 []) 0x0100#16 0x2000 [] (some .bus) ∧
    FirstFault (command hwMem 0x0100#16 0x1000 []) 0x0100#16 0x1000 [] none ∧
    FirstFault (command hwMem 0x0400#16 0 []) 0x0400#16 0 [] (some .noGroup) ∧
    FirstFault (command hwA 0x0900#16 0 []) 0x0900#16 0 [] (some .noMask) ∧
    FirstFault (command State.reset 0x0700#16 0 []) 0x0700#16 0 [] none := by
  have hb : decode 0x0B00#16 0 = .error (.noSuchOpcode 0xB#4) := rfl
  have hl : ∀ a, decode 0x0100#16 a = .ok (.load a) := fun _ => rfl
  have he : decode 0x0400#16 0 = .ok .matchEod := rfl
  have hr : decode 0x0900#16 0 = .ok .removeLowest := rfl
  have hs : decode 0x0700#16 0 = .ok .staticEmpty := rfl
  simp only [FirstFault, hb, hl, he, hr, hs, LaneAnswers]
  decide

/-- The hypotheses together: an OK LOAD, a range fault, and a command in the fault state. -/
theorem witness_FirstCheckDecidesTheResponse :
    (Accepts (command hwMem 0x0100#16 0x1000 []) 0x0100#16 0x1000 [] [] ∧
      FirstFault (command hwMem 0x0100#16 0x1000 []) 0x0100#16 0x1000 [] none ∧
      (command hwMem 0x0100#16 0x1000 []).faulted = false) ∧
    (Accepts (command hwSmall 0x0100#16 0xFFF8 []) 0x0100#16 0xFFF8 [] [] ∧
      FirstFault (command hwSmall 0x0100#16 0xFFF8 []) 0x0100#16 0xFFF8 [] (some .bus) ∧
      2 ^ hwSmall.cfg.addrWidth < 0xFFF8 + hwSmall.cfg.width) ∧
    (Accepts (command hwFaulted 0x0400#16 0 []) 0x0400#16 0 [] [] ∧
      FirstFault (command hwFaulted 0x0400#16 0 []) 0x0400#16 0 [] none ∧
      (command hwFaulted 0x0400#16 0 []).faulted = true) := by
  obtain ⟨_, _, h3, _, h5, _⟩ := witness_FirstFault
  have he : decode 0x0400#16 0 = .ok .matchEod := rfl
  exact ⟨⟨⟨rfl, by decide, by decide⟩, h5, by decide⟩, ⟨⟨rfl, by decide, by decide⟩, h3, by decide⟩,
    ⟨rfl, by decide, by decide⟩, by simp only [FirstFault, he]; decide, by decide⟩

theorem witness_FaultStateLastsUntilReset :
    (hwFaulted.faulted = true ∧ ∃ t, step (command hwFaulted 0x0A00#16 0 []) = .next t) ∧
    ∃ t, step { hwFaulted with host := [.rst true] } = .next t := ⟨⟨by decide, _, rfl⟩, _, rfl⟩

theorem witness_RstReachesTheResetState :
    ({ hwFaulted with host := [.rst true] } : State).host = .rst true :: [] ∧
    (({ hwMem with host := [.command 0x0100#16 0x1000 [(1, 1#8)] true] } : State).cmdReady = true ∧
      [((1, 1#8) : Host.Cell)].all (fun w => decide (w.1 < 2 ^ hwMem.cfg.addrWidth)) = true) ∧
    ({ hwMem with rst := true, host := [.rst false] } : State).busy = false := by decide

theorem witness_ResetStateHasTheSpecsValues :
    ({ hwFaulted with host := [.rst true, .rst false] } : State).host = .rst true :: .rst false :: [] := rfl

theorem witness_EveryAcceptedCommandCompletes :
    hwMem.eventFits (.store 0xFFFF 1#8) = true ∧ hwMem.eventFits (.unmap 0x1000) = true ∧
    hwMem.eventFits (.rst true) = true ∧ hwMem.eventFits (.command 0x0100#16 (2 ^ 64 - 1) [] true) = true := by decide

theorem witness_OutsideAddressesStop : 2 ^ hwMem.cfg.addrWidth ≤ 2 ^ 64 ∧
    (command hwMem 0x0100#16 (2 ^ 64) []).cmdReady = true ∧ decode 0x0100#16 (2 ^ 64) = .ok (.load (2 ^ 64)) :=
  ⟨by decide, by decide, rfl⟩

theorem witness_Inv : (hwM 0x80#128).Inv :=
  ⟨by decide, by decide, by decide, by decide, by decide, by decide, by decide, by decide, by decide, by decide,
    by decide, by decide⟩

theorem witness_EveryStepKeepsTheInvariant :
    (command (hwM 0x80#128) 0x0900#16 0 []).Inv ∧ ∃ t, step (command (hwM 0x80#128) 0x0900#16 0 []) = .next t :=
  ⟨⟨by decide, by decide, by decide, by decide, by decide, by decide, by decide, by decide, by decide, by decide,
    by decide, by decide⟩, _, rfl⟩

theorem witness_ResetMeetsTheInvariant : Config.fbDefault.wf = true := by decide

theorem witness_RegistersAreHeldInReset :
    State.HeldInReset { hwMem.assertRst with host := [.store 5 1#8] } ∧ hwMem.assertRst.rst = true ∧
    ∃ t, step { hwMem.assertRst with host := [.store 5 1#8] } = .next t := ⟨fun _ => rfl, rfl, _, rfl⟩

theorem witness_ParametersNeverChange : ∃ t, step (command fbA 0x0300#16 0 []) = .next t := ⟨_, rfl⟩

theorem witness_ValidBitsAreClearedByResetAlone :
    (hwM 0#128).gValid = true ∧ (hwM 0#128).mValid = true ∧ ∃ t, step (command (hwM 0#128) 0x0100#16 0x1000 []) = .next t :=
  ⟨rfl, rfl, _, rfl⟩

theorem witness_HiddenRegistersDecideNothing :
    hwHidden ≠ hwMem ∧ (command hwHidden 0x0100#16 0x1000 []).SameVisible (command hwMem 0x0100#16 0x1000 []) :=
  ⟨by decide, rfl⟩

theorem witness_OutputsShowNoHiddenRegister : hwHidden ≠ hwMem ∧ hwHidden.SameVisible hwMem := ⟨by decide, rfl⟩

theorem witness_ResultsDependOnTheReadSet :
    hwA.faulted = false ∧ (hwM 0x80#128).faulted = false ∧ hwA.cfg = (hwM 0x80#128).cfg ∧
    AgreeOnReads .convert hwA (hwM 0x80#128) ∧ ∃ s' t', exec .convert hwA = .next s' ∧ exec .convert (hwM 0x80#128) = .next t' :=
  ⟨by decide, by decide, rfl, ⟨rfl, rfl⟩, _, _, rfl, rfl⟩

/-- One next state for each response. -/
theorem witness_EveryCommandKeepsToItsWriteSet :
    (after (.load 0x1000) hwMem).rspCode = .ok ∧ (after (.load 0x2000) hwMem).rspCode = .fault ∧
    (after .any hwFaulted).rspCode = .rejected ∧ ∃ t, exec (.load 0x1000) hwMem = .next t :=
  ⟨by decide, by decide, by decide, _, rfl⟩

theorem witness_HostWriteChangesOneByte :
    ({ hwMem with host := [.store 0x1000 7#8] } : State).host = .store 0x1000 7#8 :: [] ∧
    0x1000 < 2 ^ hwMem.cfg.addrWidth := ⟨rfl, by decide⟩

/-- The lowest address, and a group whose first byte the host writes in the window. -/
theorem witness_LoadFillsTheGroup :
    (hwMem.faulted = false ∧ 0x1000 % hwMem.cfg.alignWidth = 0 ∧ 0x1000 + hwMem.cfg.width ≤ 2 ^ hwMem.cfg.addrWidth ∧
      ∀ i < hwMem.cfg.width, LaneAnswers hwMem 0x1000 i) ∧
    (∀ i < hwSmall.cfg.width, LaneAnswers { hwSmall with window := [(0xFFF0, 1#8)] } 0xFFF0 i) ∧
    0xFFF0 + hwSmall.cfg.width = 2 ^ hwSmall.cfg.addrWidth := by
  simp only [LaneAnswers]
  decide

theorem witness_MisalignedLoadFaults : hwMem.faulted = false ∧ 0x1001 % hwMem.cfg.alignWidth ≠ 0 ∧
    ({ hwMem.cfg with alignWidth := 1 } : Config).alignWidth = 1 := by decide

theorem witness_LoadPastTheTopFaults : (hwSmall.faulted = false ∧ 0xFFF8 % hwSmall.cfg.alignWidth = 0 ∧
      2 ^ hwSmall.cfg.addrWidth < 0xFFF8 + hwSmall.cfg.width) ∧
    (Config.hwDefault.alignWidth = Config.hwDefault.width ∧ Config.hwDefault.width ∣ 2 ^ Config.hwDefault.addrWidth ∧
      2 ^ 64 - 16 < 2 ^ Config.hwDefault.addrWidth ∧ (2 ^ 64 - 16) % Config.hwDefault.alignWidth = 0) := by decide

theorem witness_UnreadableLoadFaults : hwMem.faulted = false ∧ 0x1010 % hwMem.cfg.alignWidth = 0 ∧
    0x1010 + hwMem.cfg.width ≤ 2 ^ hwMem.cfg.addrWidth ∧ 0 < hwMem.cfg.width ∧ ¬ LaneAnswers hwMem 0x1010 0 := by
  simp only [LaneAnswers]
  decide

theorem witness_LoadRequestsItsGroupOnce : hwSmall.faulted = false ∧ 0xFFF0 % hwSmall.cfg.alignWidth = 0 ∧
    0xFFF0 + hwSmall.cfg.width ≤ 2 ^ hwSmall.cfg.addrWidth ∧ ∃ t, exec (.load 0xFFF0) hwSmall = .next t :=
  ⟨by decide, by decide, by decide, _, rfl⟩

theorem witness_ReadChannelShowsTheGroup : (hwSmall.faulted = false ∧ 0xFFF0 % hwSmall.cfg.alignWidth = 0 ∧
    0xFFF0 + hwSmall.cfg.width ≤ 2 ^ hwSmall.cfg.addrWidth ∧ ∃ t, exec (.load 0xFFF0) hwSmall = .next t) ∧
    ((∀ a, Instr.matchEmpty ≠ .load a) ∧ hwA.memReqs = [] ∧ ∃ t, exec .matchEmpty hwA = .next t) :=
  ⟨⟨by decide, by decide, by decide, _, rfl⟩, by simp, rfl, _, rfl⟩

theorem witness_LoadIsAllOrNothing : (∃ t, exec (.load 0x1000) hwMem = .next t ∧ t.rspCode = .ok) ∧
    ∃ t, exec (.load 0x1001) hwA = .next t ∧ t.rspCode = .fault := ⟨⟨_, rfl, by decide⟩, _, rfl, by decide⟩

theorem witness_EqualMemoryLoadsAlike :
    hwMem.cfg = (hwM 0x80#128).cfg ∧
    (∀ i < hwMem.cfg.width, Memory.lookup hwMem.mem (0x1000 + i) = Memory.lookup (hwM 0x80#128).mem (0x1000 + i)) ∧
    hwMem.SingleWriter 0x1000 ∧ (hwM 0x80#128).SingleWriter 0x1000 ∧
    ∃ s' t', exec (.load 0x1000) hwMem = .next s' ∧ exec (.load 0x1000) (hwM 0x80#128) = .next t' ∧
      s'.rspCode = .ok ∧ t'.rspCode = .ok :=
  ⟨rfl, fun _ _ => rfl, fun _ _ => rfl, fun _ _ => rfl, _, _, rfl, rfl, by decide, by decide⟩

theorem witness_LoadReadsTheCompletedWrite :
    ∃ t, step { hwMem with host := [.store (0x1000 + 15) 9#8] } = .next t ∧ 15 < t.cfg.width ∧ t.faulted = false ∧
      0x1000 % t.cfg.alignWidth = 0 ∧ 0x1000 + t.cfg.width ≤ 2 ^ t.cfg.addrWidth ∧ t.SingleWriter 0x1000 ∧
      ∀ j < t.cfg.width, j ≠ 15 → (Memory.lookup hwMem.mem (0x1000 + j)).isSome = true :=
  ⟨_, rfl, by decide, by decide, by decide, by decide, fun _ _ => rfl, by decide⟩

/-- A readable allocation of one slot: one group and one padding group. -/
def hwTable : State := { State.reset with mem := memAt 0x1000 (groupA ++ groupA) }

theorem witness_TableLoadsNeverFault : hwTable.faulted = false ∧ hwTable.Allocated 0x1000 1 ∧
    hwTable.TableLoad 0x1000 1 0x1000 ∧ hwTable.TableLoad 0x1000 1 0x1010 ∧ hwTable.SingleWriter 0x1010 :=
  ⟨by decide, ⟨by decide, by decide, by decide⟩, ⟨by decide, by decide, by decide⟩, ⟨by decide, by decide, by decide⟩,
    fun _ _ => rfl⟩

/-- The hypotheses of `MatchResult`, with a group and without: those of MatchByteReportsEqualLanes,
MatchEmptyReportsEmptyLanes, MatchEodReportsSpecialLanes and MatchFullReportsFullLanes. -/
theorem witness_MatchResult : (hwA.faulted = false ∧ hwA.gValid = true) ∧ (hwMem.faulted = false ∧ hwMem.gValid = false) := by
  decide

theorem witness_ConvertRewritesTheGroup : (fbB.faulted = false ∧ fbB.gValid = true) ∧
    (hwMem.faulted = false ∧ hwMem.gValid = false) := by decide

theorem witness_StaticEmptyWritesAllEmpty : State.reset.faulted = false := by decide

theorem witness_MatchBytePartitionsTheLanes : hwA.faulted = false ∧ hwA.gValid = true ∧
    ∃ r : Byte → State, ∀ b, exec (.matchByte b) hwA = .next (r b) :=
  ⟨by decide, rfl, _, fun b => exec_eq (.matchByte b) hwA⟩

theorem witness_MatchEmptyIsMatchByteEmpty : fbA.faulted = false ∧ fbA.gValid = true := by decide

theorem witness_EodIsEmptyOrDeletedOnCanonicalGroups : hwA.cfg.wf = true ∧ hwA.faulted = false ∧ hwA.gValid = true ∧
    ∀ i < hwA.cfg.width, hwA.cfg.canonicalByte (hwA.gLane i) = true := by decide

theorem witness_MatchFullComplementsMatchEod : fbB.faulted = false ∧ fbB.gValid = true := by decide

/-- One group for each of R98's clauses: all FULL, and EMPTY and DELETED mixed. -/
theorem witness_ConvertLaws : fbB.cfg.wf = true ∧ fbB.faulted = false ∧ fbB.gValid = true ∧
    (∀ i < 8, ¬ TopBit { fbB with g := List.replicate 8 0x7F#8 } i) ∧
    ∀ i < 8, State.gLane { fbB with g := [0xFF#8, 0x80#8, 0xFF#8, 0x80#8, 0xFF#8, 0x80#8, 0xFF#8, 0x80#8] } i = 0xFF#8 ∨
      State.gLane { fbB with g := [0xFF#8, 0x80#8, 0xFF#8, 0x80#8, 0xFF#8, 0x80#8, 0xFF#8, 0x80#8] } i = fbB.cfg.deleted := by
  simp only [TopBit]
  decide

/-- HW with the bytes of STATIC_EMPTY stored at 0x3000 by the host. -/
def hwStored : State := { State.reset with mem := memAt 0x3000 (List.replicate 16 0xFF#8) }

theorem witness_StoredStaticEmptyMatchesEveryLane :
    ∃ t, exec .staticEmpty hwMem = .next t ∧ hwMem.faulted = false ∧ hwStored.cfg = hwMem.cfg ∧
      hwStored.faulted = false ∧
      (∀ i < hwStored.cfg.width, Memory.lookup hwStored.mem (0x3000 + i) = some (t.outLane i)) ∧
      hwStored.SingleWriter 0x3000 ∧ 0x3000 % hwStored.cfg.alignWidth = 0 ∧
      0x3000 + hwStored.cfg.width ≤ 2 ^ hwStored.cfg.addrWidth :=
  ⟨_, rfl, by decide, rfl, by decide, by decide, fun _ _ => rfl, by decide, by decide⟩

theorem witness_VariantsReportTheSameLanes : hwA.cfg.variant = .hw ∧ fbA.cfg.variant = .fb .eight ∧
    hwA.faulted = false ∧ fbA.faulted = false ∧ hwA.gValid = true ∧ fbA.gValid = true ∧
    (∀ k < min hwA.cfg.width fbA.cfg.width, hwA.gLane k = fbA.gLane k) ∧ IsMatch .matchEmpty ∧
    1 ∈ hwA.cfg.lanesOf (after .matchEmpty hwA).m :=
  ⟨rfl, rfl, by decide, by decide, rfl, rfl, by decide, .inr (.inl rfl), by decide⟩

/-- LOWEST: M = 0, the top lane alone, and no bitmask. -/
theorem witness_LowestReportsTheLowestLane :
    ((hwM 0#128).faulted = false ∧ (hwM 0#128).mValid = true ∧ (hwM 0#128).m = 0#128) ∧
    ((fbM 0x80#128).mValid = true ∧ (fbM 0x80#128).m.getLsbD 7 = true ∧ ∀ q < 7, (fbM 0x80#128).m.getLsbD q = false) ∧
    hwA.mValid = false := by decide

theorem witness_ReportedLaneIsTheFirstMatch : (fbM 0xA4#128).cfg.goodMask (fbM 0xA4#128).m = true ∧
    (fbM 0xA4#128).faulted = false ∧ (fbM 0xA4#128).mValid = true ∧
    ∃ t, exec .lowest (fbM 0xA4#128) = .next t ∧ t.laneSome = true := ⟨by decide, by decide, rfl, _, rfl, by decide⟩

theorem witness_RemoveLowestClearsTheLowestBit : (fbM 0xA4#128).cfg.goodMask (fbM 0xA4#128).m = true ∧
    (fbM 0xA4#128).faulted = false ∧ (fbM 0xA4#128).mValid = true ∧ (hwA.cfg.goodMask hwA.m = true ∧ hwA.mValid = false) := by
  decide

theorem witness_RemoveLowestDropsTheReportedLane :
    (hwM 0x80#128).cfg.goodMask (hwM 0x80#128).m = true ∧ (hwM 0x80#128).faulted = false ∧
    (hwM 0x80#128).mValid = true ∧ (hwM 0x80#128).m ≠ 0#128 := by decide

theorem witness_AnyTestsForALane : ((hwM 0#128).faulted = false ∧ (hwM 0#128).mValid = true) ∧
    (hwA.faulted = false ∧ hwA.mValid = false) := by decide

theorem witness_AnyAgreesWithLowest : (fbM 0xA4#128).faulted = false ∧ (fbM 0xA4#128).mValid = true := by decide

theorem witness_IterationYieldsTheLanesInOrder : (fbM 0xFF#128).cfg.goodMask (fbM 0xFF#128).m = true ∧
    (fbM 0xFF#128).faulted = false ∧ (fbM 0xFF#128).mValid = true := by decide

theorem witness_ReissuedMatchRebuildsTheBitmask : hwA.faulted = false ∧ hwA.gValid = true ∧ IsMatch .matchEod ∧
    ∃ t u, exec .matchEod hwA = .next t ∧ exec .removeLowest t = .next u :=
  ⟨by decide, rfl, .inr (.inr (.inl rfl)), _, _, rfl, rfl⟩

theorem witness_OutBytesPackTheLanes :
    (after .convert hwA).out.length = (after .convert hwA).cfg.width ∧ (after .convert hwA).outValid = true ∧
    (after .convert hwA).busy = false ∧ 15 < (after .convert hwA).cfg.width := by decide

end Sys2Proof.Tests
end

section
/-! What a command reads: its checks and the values it writes are those of every state with the same parameters that
agrees with it on the command's read set (00_scope.md R17, 10_state.md R37). -/

namespace Sys2Proof.Claims

open Sys2Proof.Machine

variable {i : Instr} {s t : State}

/-! ## The views a command reads through -/

theorem misaligned_congr (hcfg : s.cfg = t.cfg) (a : Nat) : s.misaligned a = t.misaligned a := by
  simp only [State.misaligned, hcfg]

theorem pastTop_congr (hcfg : s.cfg = t.cfg) (a : Nat) : s.pastTop a = t.pastTop a := by
  unfold State.pastTop
  rw [hcfg]

theorem laneAnswer_congr (hmem : s.mem = t.mem) (hwindow : s.window = t.window) (hdraws : s.draws = t.draws) (a : Nat) :
    s.laneAnswer a = t.laneAnswer a := by
  funext i
  unfold State.laneAnswer State.memRead State.raced
  rw [hmem, hwindow, hdraws]

theorem groupReadable_congr (hcfg : s.cfg = t.cfg) {a : Nat} (hlanes : s.laneAnswer a = t.laneAnswer a) :
    s.groupReadable a = t.groupReadable a := by
  simp only [State.groupReadable, hcfg, hlanes]

theorem groupBytes_congr (hcfg : s.cfg = t.cfg) {a : Nat} (hlanes : s.laneAnswer a = t.laneAnswer a) :
    s.groupBytes a = t.groupBytes a := by
  simp only [State.groupBytes, hcfg, hlanes]

theorem eqLane_congr (hg : s.g = t.g) (b : Byte) : s.eqLane b = t.eqLane b := by
  funext i
  simp only [State.eqLane, State.gLane, hg]

theorem specialLane_congr (hg : s.g = t.g) : s.specialLane = t.specialLane := by
  funext i
  simp only [State.specialLane, State.gLane, hg]

theorem convertLane_congr (hcfg : s.cfg = t.cfg) (hg : s.g = t.g) : s.convertLane = t.convertLane := by
  funext i
  simp only [State.convertLane, specialLane_congr hg, hcfg]

/-! ## The checks and the writes -/

/-- The read set decides which check fails (60_exceptions.md R130). -/
theorem failing_of_agreeOnReads (hcfg : s.cfg = t.cfg) (hreads : AgreeOnReads i s t) : failing i s = failing i t := by
  cases i with
  | load a =>
    obtain ⟨hmem, hwindow, hdraws⟩ := hreads
    rw [failing, failing, misaligned_congr hcfg, pastTop_congr hcfg,
      groupReadable_congr hcfg (laneAnswer_congr hmem hwindow hdraws a)]
  | staticEmpty => rfl
  | _ => simp only [failing, hreads.2]

/-- The read set decides the values written (10_state.md R37). -/
theorem written_of_agreeOnReads (hcfg : s.cfg = t.cfg) (hreads : AgreeOnReads i s t) :
    AgreeOnWrites i (written i s) (written i t) := by
  cases i with
  | load a =>
    obtain ⟨hmem, hwindow, hdraws⟩ := hreads
    exact ⟨groupBytes_congr hcfg (laneAnswer_congr hmem hwindow hdraws a), rfl⟩
  | matchByte b => simp [AgreeOnWrites, written, hcfg, eqLane_congr hreads.1]
  | matchEmpty => simp [AgreeOnWrites, written, hcfg, eqLane_congr hreads.1]
  | matchEod => simp [AgreeOnWrites, written, hcfg, specialLane_congr hreads.1]
  | matchFull => simp [AgreeOnWrites, written, hcfg, specialLane_congr hreads.1]
  | convert => simp [AgreeOnWrites, written, hcfg, convertLane_congr hcfg hreads.1]
  | staticEmpty => simp [AgreeOnWrites, written, hcfg]
  | lowest => simp [AgreeOnWrites, written, hcfg, hreads.1]
  | removeLowest => simp [AgreeOnWrites, written, hcfg, hreads.1]
  | any => simp [AgreeOnWrites, written, hreads.1]

/-- Completion writes no register of a command's write set. -/
theorem agreeOnWrites_complete (r : RspCode) : AgreeOnWrites i (s.complete r) (t.complete r) ↔ AgreeOnWrites i s t := by
  cases i <;> rfl

/-- Settles O21: both states fail the same check and take the same record, or pass and write the same values. -/
theorem resultsDependOnTheReadSet : Obligations.ResultsDependOnTheReadSet := by
  intro i s t s' t' hs ht hcfg hreads hs' ht'
  have hsame : failing i s = failing i t := failing_of_agreeOnReads hcfg hreads
  cases hcheck : failing i t with
  | none =>
    rw [exec_of_passing hs (hsame.trans hcheck)] at hs'
    rw [exec_of_passing ht hcheck] at ht'
    cases hs'
    cases ht'
    exact ⟨rfl, fun _ => (agreeOnWrites_complete .ok).2 (written_of_agreeOnReads hcfg hreads), nofun⟩
  | some f =>
    rw [exec_of_failing hs (hsame.trans hcheck)] at hs'
    rw [exec_of_failing ht hcheck] at ht'
    cases hs'
    cases ht'
    exact ⟨rfl, nofun, fun _ => ⟨rfl, rfl, rfl⟩⟩

end Sys2Proof.Claims
end

section
/-! What an accepted command does and leaves alone: it is answered, it completes, it keeps to its write set, and it
clears no valid bit (10_state.md R30, R34, R37). -/

namespace Sys2Proof.Machine

open Sys2Proof.Claims

/-! ## The ways a command ends -/

/-- Requests go to their record alone. -/
theorem requested_eq (i : Instr) (s : State) : requested i s = { s with memReqs := (requested i s).memReqs } := by
  cases i with
  | load a => rw [requested]; split <;> rfl
  | _ => rfl

@[simp] theorem requested_cfg (i : Instr) (s : State) : (requested i s).cfg = s.cfg := by
  rw [requested_eq]

/-- An illegal word is REJECTED in the fault state, else it faults ILLEGAL (60_exceptions.md R130). -/
theorem State.illegalCommand_cases (s : State) (word : CmdWord) :
    s.illegalCommand word = s.reject ∨ s.illegalCommand word = s.raiseFault .illegal word 0 :=
  ite_eq_or_eq _ _ _

/-- A command that is no LOAD adds no request (20_memory.md R45). -/
theorem memReqs_of_exec {i : Instr} {s t : State} (hi : ∀ a, i ≠ .load a) (hx : exec i s = .next t) :
    t.memReqs = s.memReqs := by
  cases i with
  | load a => exact absurd rfl (hi a)
  | _ => rcases exec_cases hx with ⟨-, rfl⟩ | ⟨-, -, rfl⟩ | ⟨-, f, -, rfl⟩ <;> rfl

/-! ## Every event that fits is answered -/

/-- A command event that fits: its writes lie in the address space, and its operand fits CMD_ADDR. -/
theorem State.fits_of_eventFits {s : State} {word : CmdWord} {addr : Nat} {during : List Host.Cell} {abort : Bool}
    (h : s.eventFits (.command word addr during abort) = true) :
    (∀ w ∈ during, w.1 < 2 ^ s.cfg.addrWidth) ∧ ∀ i, decode word addr = .ok i → i.wf s.cfg = true := by
  obtain ⟨hduring, hwf⟩ := (Bool.and_eq_true _ _).mp h
  refine ⟨fun w hw => of_decide_eq_true (List.all_eq_true.1 hduring w hw), fun i hi => ?_⟩
  simpa only [hi] using hwf

/-- An accepted command is answered by a state that has completed it (10_state.md R34). -/
theorem step_completes_of_accepts {s : State} {word : CmdWord} {addr : Nat} {during : List Host.Cell}
    {rest : List HostEvent} (h : Accepts s word addr during rest) :
    ∃ t, step s = .next t ∧ t.busy = false ∧ t.rspValid = true := by
  obtain ⟨hhost, hready, hfits⟩ := h
  obtain ⟨hduring, hwf⟩ := State.fits_of_eventFits hfits
  cases hd : decode word addr with
  | error e =>
    refine ⟨_, step_of_illegal hhost hready hduring hd, ?_⟩
    rcases (running s during rest).illegalCommand_cases word with he | he <;> rw [he] <;> exact ⟨rfl, rfl⟩
  | ok i =>
    have hx := exec_eq i (running s during rest)
    obtain ⟨hbusy, hrsp⟩ := exec_completes hx
    exact ⟨State.closeWindow _, by rw [step_of_command hhost hready hduring hd (hwf i hd), hx]; rfl, hbusy, hrsp⟩

/-- Every action of the host that fits the ports and the address space is answered (70_reset_and_hazards.md R166). -/
theorem step_answers {s : State} {e : HostEvent} {rest : List HostEvent} (hhost : s.host = e :: rest)
    (hfits : s.eventFits e = true) : ∃ t, step s = .next t := by
  cases e with
  | store a b => exact ⟨_, by rw [step, hhost]; exact if_pos hfits⟩
  | unmap a => exact ⟨_, by rw [step, hhost]; exact if_pos hfits⟩
  | rst level => exact ⟨_, by rw [step, hhost]⟩
  | command word addr during abort =>
    have hinside : State.firstOutside { s with host := rest } during = none :=
      (State.firstOutside_eq_none _ _).2 (State.fits_of_eventFits hfits).1
    cases hready : s.cmdReady with
    | false =>
      have hready' : State.cmdReady { s with host := rest } = false := hready
      exact ⟨_, by simp only [step, hhost, presentCommand, hinside, hready']; rfl⟩
    | true =>
      have hready' : State.cmdReady { s with host := rest } = true := hready
      cases abort with
      | true => exact ⟨_, by simp only [step, hhost, presentCommand, hinside, hready']; rfl⟩
      | false =>
        obtain ⟨t, ht, -⟩ := step_completes_of_accepts ⟨hhost, hready, hfits⟩
        exact ⟨t, ht⟩

/-- A step uses up the host's next action (log 5). -/
theorem step_takes_event {s t : State} {e : HostEvent} {rest : List HostEvent} (hhost : s.host = e :: rest)
    (hstep : step s = .next t) : t.host = rest := by
  rcases step_cases hstep with ⟨hnil, -⟩ | ⟨a, b, tail, hh, -, rfl⟩ | ⟨a, tail, hh, -, rfl⟩ | ⟨level, tail, hh, rfl⟩ |
    ⟨word, addr, during, abort, tail, hh, -, hend⟩
  · cases hhost.symm.trans hnil
  · cases hhost.symm.trans hh
    rfl
  · cases hhost.symm.trans hh
    rfl
  · cases hhost.symm.trans hh
    cases level <;> rfl
  · cases hhost.symm.trans hh
    rcases hend with ⟨-, rfl⟩ | ⟨-, -, rfl⟩ | ⟨-, -, -, rfl⟩ | ⟨-, -, i, u, -, -, hx, rfl⟩
    · cases abort <;> rfl
    · rfl
    · rcases (running s during rest).illegalCommand_cases word with he | he <;> rw [he] <;> rfl
    · obtain ⟨-, -, -, hkept, -⟩ := exec_keeps hx
      exact hkept

/-! ## Valid bits -/

/-- Every valid bit that is 1 in `s` is 1 in `t` (10_state.md R30). -/
def State.KeepsValidBits (s t : State) : Prop :=
  (s.gValid = true → t.gValid = true) ∧ (s.mValid = true → t.mValid = true) ∧
    (s.laneValid = true → t.laneValid = true) ∧ (s.anyValid = true → t.anyValid = true) ∧
    (s.outValid = true → t.outValid = true)

theorem State.KeepsValidBits.refl (s : State) : s.KeepsValidBits s := ⟨id, id, id, id, id⟩

/-- A command sets valid bits and clears none. -/
theorem exec_keepsValidBits {i : Instr} {s t : State} (h : exec i s = .next t) : s.KeepsValidBits t := by
  rcases exec_cases h with ⟨-, rfl⟩ | ⟨-, -, rfl⟩ | ⟨-, f, -, rfl⟩
  · exact .refl s
  · cases i <;> simp [State.KeepsValidBits, written]
  · rw [requested_eq]
    exact .refl s

/-- A step that does not assert RST ends with the valid bits as they were, or as a command leaves them. -/
theorem step_keepsValidBits_or_asserts {s t : State} (hstep : step s = .next t) :
    s.KeepsValidBits t ∨ t.rst = true := by
  have hsame : s.KeepsValidBits s := .refl s
  rcases step_cases hstep with ⟨-, rfl⟩ | ⟨a, b, rest, -, -, rfl⟩ | ⟨a, rest, -, -, rfl⟩ | ⟨level, rest, -, rfl⟩ |
    ⟨word, addr, during, abort, rest, -, -, hend⟩
  · exact .inl hsame
  · exact .inl hsame
  · exact .inl hsame
  · cases level with
    | true => exact .inr rfl
    | false => exact .inl hsame
  · rcases hend with ⟨-, rfl⟩ | ⟨-, -, rfl⟩ | ⟨-, -, -, rfl⟩ | ⟨-, -, i, u, -, -, hx, rfl⟩
    · cases abort with
      | true => exact .inr rfl
      | false => exact .inl hsame
    · exact .inr rfl
    · rcases (running s during rest).illegalCommand_cases word with he | he <;> rw [he] <;> exact .inl hsame
    · have hkeeps : (running s during rest).KeepsValidBits u := exec_keepsValidBits hx
      exact .inl hkeeps

end Sys2Proof.Machine

namespace Sys2Proof.Claims

open Sys2Proof.Machine

/-- Settles O12: the event is answered and used up; an accepted command runs to its completion in that step. -/
theorem everyAcceptedCommandCompletes : Obligations.EveryAcceptedCommandCompletes := by
  intro s e rest hhost hfits
  obtain ⟨t, ht⟩ := step_answers hhost hfits
  refine ⟨t, ht, step_takes_event hhost ht, fun word addr during haccepts => ?_⟩
  obtain ⟨u, hu, hbusy, hrsp⟩ := step_completes_of_accepts haccepts
  cases ht.symm.trans hu
  exact ⟨hrsp, hbusy⟩

/-- Settles O18: reset apart, no step clears a valid bit. -/
theorem validBitsAreClearedByResetAlone : Obligations.ValidBitsAreClearedByResetAlone :=
  fun _ _ => step_keepsValidBits_or_asserts

/-- A command that passes its checks writes its set alone; REMOVE_LOWEST found M_VALID = 1 already. -/
theorem wroteOnlyItsSet_of_passing {i : Instr} {s : State} (h : failing i s = none) :
    WroteOnlyItsSet i s ((written i s).complete .ok) := by
  cases i with
  | removeLowest =>
    have hvalid : s.mValid = true := by simpa [failing] using h
    simp only [WroteOnlyItsSet, written, State.writeM, ← hvalid]
    rfl
  | _ => rfl

/-- Settles O22: a case for each way a command can end. -/
theorem everyCommandKeepsToItsWriteSet : Obligations.EveryCommandKeepsToItsWriteSet := by
  intro i s t hx
  obtain ⟨-, hmem, -⟩ := exec_keeps hx
  have hlookup : ∀ x, Memory.lookup t.mem x = Memory.lookup s.mem x := fun x => by rw [hmem]
  rcases exec_cases hx with ⟨-, rfl⟩ | ⟨-, hpass, rfl⟩ | ⟨-, f, -, rfl⟩
  · exact ⟨nofun, nofun, fun _ => rfl, hlookup⟩
  · exact ⟨fun _ => wroteOnlyItsSet_of_passing hpass, nofun, nofun, hlookup⟩
  · refine ⟨nofun, fun _ => ⟨?_, fun hload => memReqs_of_exec hload hx⟩, nofun, hlookup⟩
    rw [requested_eq]
    rfl

end Sys2Proof.Claims
end

section
/-! The invariant of `State.Inv`, kept by every step (10_state.md R23 to R29, 00_scope.md R14). Its register part is a
predicate of its own, which holds inside a command too, where the matcher is busy and a window is open. -/

namespace Sys2Proof.Machine

/-- The part of `State.Inv` that speaks of the parameters and the registers of 10_state.md R23 to R29. -/
structure State.RegistersOk (s : State) : Prop where
  cfgLegal : s.cfg.wf = true
  gLength : s.g.length = s.cfg.width
  outLength : s.out.length = s.cfg.width
  mGood : s.cfg.goodMask s.m = true
  laneInRange : s.lane < s.cfg.width
  laneNone : s.laneSome = false → s.lane = 0
  faultRecord : s.faultRecordOk = true
  faddrFits : s.faddr < 2 ^ s.cfg.addrWidth

/-- The part of `State.Inv` that speaks of a memory: canonical, and inside an address space of `n` addresses. -/
def Memory.Fits (n : Nat) (mem : List Host.Cell) : Prop := Memory.wf mem = true ∧ ∀ cell ∈ mem, cell.1 < n

/-- `State.Inv` in its parts. -/
theorem State.inv_iff (s : State) : s.Inv ↔
    s.RegistersOk ∧ s.busy = false ∧ Memory.Fits (2 ^ s.cfg.addrWidth) s.mem ∧ s.window = [] := by
  constructor
  · intro h
    exact ⟨⟨h.cfgLegal, h.gLength, h.outLength, h.mGood, h.laneInRange, h.laneNone, h.faultRecord, h.faddrFits⟩,
      h.idle, ⟨h.memCanonical, h.memInSpace⟩, h.windowClosed⟩
  · rintro ⟨h, hidle, ⟨hcanonical, hspace⟩, hwindow⟩
    exact { h with idle := hidle, memCanonical := hcanonical, memInSpace := hspace, windowClosed := hwindow }

/-! ## The memory part -/

theorem Memory.Fits.store {n a : Nat} {mem : List Host.Cell} (h : Memory.Fits n mem) (ha : a < n) (b : Byte) :
    Memory.Fits n (Memory.store mem a b) :=
  ⟨Memory.store_wf h.1 a b, fun cell hcell => (Memory.mem_store hcell).elim (fun e => e ▸ ha) (h.2 cell)⟩

theorem Memory.Fits.erase {n : Nat} {mem : List Host.Cell} (h : Memory.Fits n mem) (a : Nat) :
    Memory.Fits n (Memory.erase mem a) :=
  ⟨Memory.erase_wf h.1 a, fun cell hcell => h.2 cell (Memory.mem_erase hcell)⟩

theorem Memory.Fits.storeAll {n : Nat} {mem ws : List Host.Cell} (h : Memory.Fits n mem) (hw : ∀ w ∈ ws, w.1 < n) :
    Memory.Fits n (Memory.storeAll mem ws) :=
  storeAll_keeps h.1 h.2 hw

/-! ## The register part -/

/-- The reset state, for legal parameters (10_state.md R40). -/
theorem State.resetFor_registersOk {c : Config} (hc : c.wf = true) : (State.resetFor c).RegistersOk where
  cfgLegal := hc
  gLength := List.length_replicate
  outLength := List.length_replicate
  mGood := c.zero_good
  laneInRange := c.width_pos
  laneNone := fun _ => rfl
  faultRecord := rfl
  faddrFits := Nat.two_pow_pos _

theorem State.RegistersOk.assertRst {s : State} (h : s.RegistersOk) : s.assertRst.RegistersOk :=
  { State.resetFor_registersOk h.cfgLegal with }

/-- The lane LOWEST writes is in range, M being 0 or not (41_bitmask_ops.md R111, R112). -/
theorem lowestLane_lt {c : Config} {m : Bitmask} (hm : c.goodMask m = true) : lowestLane c m < c.width := by
  by_cases h0 : m = 0#128
  · simpa [h0] using c.width_pos
  · exact (c.lowestLane_spec hm h0).1

theorem lowestLane_of_none {m : Bitmask} (h : laneSomeFlag m = false) (c : Config) : lowestLane c m = 0 := by
  have h0 : m = 0#128 := by simpa [laneSomeFlag] using h
  rw [h0, lowestLane_zero]

/-- The values a command writes fit their registers. -/
theorem State.RegistersOk.written {s : State} (h : s.RegistersOk) (i : Instr) : (written i s).RegistersOk := by
  cases i with
  | load a => exact { h with gLength := s.groupBytes_length a }
  | matchByte b => exact { h with mGood := s.cfg.enc_good _ }
  | matchEmpty => exact { h with mGood := s.cfg.enc_good _ }
  | matchEod => exact { h with mGood := s.cfg.enc_good _ }
  | matchFull => exact { h with mGood := s.cfg.enc_good _ }
  | convert => exact { h with outLength := by simp [Machine.written] }
  | staticEmpty => exact { h with outLength := by simp [Machine.written] }
  | lowest => exact { h with
      laneInRange := lowestLane_lt h.mGood
      laneNone := fun hnone => lowestLane_of_none hnone s.cfg }
  | removeLowest => exact { h with mGood := s.cfg.dropLowest_good h.mGood }
  | any => exact { h with }

theorem State.RegistersOk.complete {s : State} (h : s.RegistersOk) (r : RspCode) : (s.complete r).RegistersOk :=
  { h with }

theorem State.RegistersOk.requested {s : State} (h : s.RegistersOk) (i : Instr) : (requested i s).RegistersOk := by
  rw [requested_eq]
  exact { h with }

/-- The record of a fault: the word of LOAD for the causes of LOAD, address 0 for the others (60_exceptions.md R126). -/
def FaultCode.Records (word : CmdWord) (addr : Nat) : FaultCode → Prop
  | .misaligned | .bus => word = 0x0100#16
  | .illegal | .noGroup | .noMask => addr = 0

theorem State.RegistersOk.raiseFault {s : State} (h : s.RegistersOk) {f : FaultCode} {word : CmdWord} {addr : Nat}
    (hrecord : f.Records word addr) (haddr : addr < 2 ^ s.cfg.addrWidth) : (s.raiseFault f word addr).RegistersOk := by
  refine { h with faultRecord := ?_, faddrFits := haddr }
  cases f <;> simp_all [State.faultRecordOk, FaultCode.Records]

/-- Every check that fails leaves a record of the right form: only LOAD fails MISALIGNED and BUS. -/
theorem records_of_failing {i : Instr} {s : State} {f : FaultCode} (h : failing i s = some f) :
    f.Records (encodeWord i) (recordedAddr i) := by
  cases i with
  | load a =>
    have hword : encodeWord (.load a) = 0x0100#16 := by rw [encodeWord, Instr.opc, Instr.imm]; decide
    simp only [failing] at h
    split at h
    · cases h; exact hword
    · split at h
      · cases h; exact hword
      · split at h <;> cases h
        exact hword
  | staticEmpty => cases h
  | _ =>
    simp only [failing] at h
    split at h <;> cases h
    rfl

/-- FADDR receives an address of the port (30_encoding.md R66). -/
theorem recordedAddr_lt {i : Instr} {c : Config} (h : i.wf c = true) : recordedAddr i < 2 ^ c.addrWidth := by
  cases i with
  | load a => simpa [Instr.wf, recordedAddr] using h
  | _ => exact Nat.two_pow_pos _

theorem State.RegistersOk.exec {i : Instr} {s t : State} (h : s.RegistersOk) (hi : i.wf s.cfg = true)
    (hx : exec i s = .next t) : t.RegistersOk := by
  rcases exec_cases hx with ⟨-, rfl⟩ | ⟨-, -, rfl⟩ | ⟨-, f, hf, rfl⟩
  · exact h.complete .rejected
  · exact (h.written i).complete .ok
  · refine (h.requested i).raiseFault (records_of_failing hf) ?_
    simpa using recordedAddr_lt hi

/-- The window of a command that has completed closes on a state that meets the invariant. -/
theorem State.RegistersOk.closeWindow_inv {s : State} (h : s.RegistersOk) (hidle : s.busy = false)
    (hmem : Memory.Fits (2 ^ s.cfg.addrWidth) (Memory.storeAll s.mem s.window)) : s.closeWindow.Inv :=
  s.closeWindow.inv_iff.2 ⟨{ h with }, hidle, hmem, rfl⟩

end Sys2Proof.Machine

namespace Sys2Proof.Claims

open Sys2Proof.Machine

/-- Settles O14: each action of the host keeps the register part and the memory part; a command ends not busy, with its
window closed. -/
theorem everyStepKeepsTheInvariant : Obligations.EveryStepKeepsTheInvariant := by
  intro s t hs hstep
  obtain ⟨hregs, hidle, hmem, hwindow⟩ := s.inv_iff.1 hs
  rw [State.inv_iff]
  rcases step_cases hstep with ⟨-, rfl⟩ | ⟨a, b, rest, -, ha, rfl⟩ | ⟨a, rest, -, -, rfl⟩ | ⟨level, rest, -, rfl⟩ |
    ⟨word, addr, during, abort, rest, -, hduring, hend⟩
  · exact ⟨hregs, hidle, hmem, hwindow⟩
  · exact ⟨{ hregs with }, hidle, hmem.store ha b, hwindow⟩
  · exact ⟨{ hregs with }, hidle, hmem.erase a, hwindow⟩
  · cases level with
    | true => exact ⟨{ hregs.assertRst with }, rfl, hmem, hwindow⟩
    | false => exact ⟨{ hregs with }, hidle, hmem, hwindow⟩
  · have hmem' := hmem.storeAll hduring
    have hrunning : (running s during rest).RegistersOk := { hregs with }
    rcases hend with ⟨-, rfl⟩ | ⟨-, -, rfl⟩ | ⟨-, -, -, rfl⟩ | ⟨-, -, i, u, -, hi, hx, rfl⟩
    · cases abort with
      | true => exact ⟨{ hregs.assertRst with }, rfl, hmem', hwindow⟩
      | false => exact ⟨{ hregs with }, hidle, hmem', hwindow⟩
    · exact ⟨{ hregs.assertRst with }, rfl, hmem', rfl⟩
    · rw [← State.inv_iff]
      rcases (running s during rest).illegalCommand_cases word with he | he <;> rw [he]
      · exact (hrunning.complete .rejected).closeWindow_inv rfl hmem'
      · have hrecord : FaultCode.illegal.Records word 0 := rfl
        exact (hrunning.raiseFault hrecord (Nat.two_pow_pos _)).closeWindow_inv rfl hmem'
    · obtain ⟨hcfg, humem, -, -, huwindow⟩ := exec_keeps hx
      rw [← State.inv_iff]
      refine (hrunning.exec hi hx).closeWindow_inv (exec_completes hx).1 ?_
      rw [hcfg, humem, huwindow]
      exact hmem'

/-- Settles O15: the registers are those of reset, and the memory is empty. -/
theorem resetMeetsTheInvariant : Obligations.ResetMeetsTheInvariant := by
  have hinv : ∀ c : Config, c.wf = true → (State.resetFor c).Inv := fun c hc =>
    (State.inv_iff _).2 ⟨State.resetFor_registersOk hc, rfl, ⟨rfl, nofun⟩, rfl⟩
  exact ⟨hinv, hinv Config.hwDefault (by decide)⟩

end Sys2Proof.Claims
end

section
/-! Registers behind valid bits that are 0 (10_state.md R36, R40). A command that passes its checks reads only visible
registers (40_group_ops.md R85, 41_bitmask_ops.md R110), so states that agree but for hidden registers step alike. -/

namespace Sys2Proof.Machine

open Sys2Proof.Claims

variable {i : Instr} {s t : State}

/-! ## Operations on states that agree but for hidden registers -/

/-- What depends on the visible part alone agrees. -/
theorem State.SameVisible.same {α : Type} (h : s.SameVisible t) (f : State → α) (hf : ∀ v, f v = f v.visible) :
    f s = f t := by
  rw [hf s, hf t, h]

/-- An operation `f` whose visible result is computed from the visible part, by `g`, keeps the agreement. -/
theorem State.SameVisible.lift (h : s.SameVisible t) (f g : State → State) (hfg : ∀ v, (f v).visible = g v.visible) :
    (f s).SameVisible (f t) := by
  rw [State.SameVisible, hfg, hfg, h]

theorem State.SameVisible.complete (h : s.SameVisible t) (r : RspCode) : (s.complete r).SameVisible (t.complete r) :=
  h.lift (·.complete r) (·.complete r) fun _ => rfl

theorem State.SameVisible.raiseFault (h : s.SameVisible t) (f : FaultCode) (word : CmdWord) (addr : Nat) :
    (s.raiseFault f word addr).SameVisible (t.raiseFault f word addr) :=
  h.lift (·.raiseFault f word addr) (·.raiseFault f word addr) fun _ => rfl

theorem State.SameVisible.closeWindow (h : s.SameVisible t) : s.closeWindow.SameVisible t.closeWindow :=
  h.lift (·.closeWindow) (·.closeWindow) fun _ => rfl

theorem State.SameVisible.assertRst (h : s.SameVisible t) : s.assertRst.SameVisible t.assertRst :=
  h.lift (·.assertRst) (·.assertRst.visible) fun _ => rfl

theorem State.SameVisible.accept (h : s.SameVisible t) (ws : List Host.Cell) : (s.accept ws).SameVisible (t.accept ws) :=
  h.lift (·.accept ws) (fun v => { v.accept ws with rspCode := .ok }) fun _ => rfl

theorem State.SameVisible.storeAll (h : s.SameVisible t) (ws : List Host.Cell) :
    State.SameVisible { s with mem := Memory.storeAll s.mem ws } { t with mem := Memory.storeAll t.mem ws } :=
  h.lift (fun v => { v with mem := Memory.storeAll v.mem ws }) (fun v => { v with mem := Memory.storeAll v.mem ws })
    fun _ => rfl

theorem State.SameVisible.writeM (h : s.SameVisible t) {m n : Bitmask} (hm : m = n) :
    (s.writeM m).SameVisible (t.writeM n) :=
  hm ▸ h.lift (·.writeM m) (·.writeM m) fun _ => rfl

theorem State.SameVisible.writeOut (h : s.SameVisible t) {bytes bytes' : List Byte} (hbytes : bytes = bytes') :
    (s.writeOut bytes).SameVisible (t.writeOut bytes') :=
  hbytes ▸ h.lift (·.writeOut bytes) (·.writeOut bytes) fun _ => rfl

/-! ## Commands -/

/-- A check sees the visible part alone. -/
theorem failing_visible (i : Instr) (s : State) : failing i s = failing i s.visible := by
  cases i <;> rfl

/-- What a command that passes its checks reads is visible: G behind G_VALID, M behind M_VALID. -/
theorem agreeOnReads_of_sameVisible (h : s.SameVisible t) (hp : failing i s = none) : AgreeOnReads i s t := by
  obtain ⟨-, hgValid, hmValid, -, -, -, -, hg, hm, -, -, -, -, -, -, -, -, -, -, hmem, -, hwindow, hdraws⟩ :=
    (s.sameVisible_iff t).1 h
  cases i with
  | load a => exact ⟨hmem, hwindow, hdraws⟩
  | staticEmpty => trivial
  | lowest | removeLowest | any =>
    have hvalid : s.mValid = true := by simpa [failing] using hp
    exact ⟨hm hvalid, hmValid⟩
  | _ =>
    have hvalid : s.gValid = true := by simpa [failing] using hp
    exact ⟨hg hvalid, hgValid⟩

/-- A command that passes its checks writes the same values. -/
theorem State.SameVisible.written (h : s.SameVisible t) (hp : failing i s = none) :
    (written i s).SameVisible (written i t) := by
  have hvals : AgreeOnWrites i (Machine.written i s) (Machine.written i t) :=
    written_of_agreeOnReads (h.same State.cfg fun _ => rfl) (agreeOnReads_of_sameVisible h hp)
  cases i with
  | load a =>
    have hbytes : s.groupBytes a = t.groupBytes a := hvals.1
    rw [Machine.written, Machine.written, ← hbytes]
    exact h.lift (fun v => (v.requestGroup a).fillGroup (s.groupBytes a))
      (fun v => (v.requestGroup a).fillGroup (s.groupBytes a)) fun _ => rfl
  | matchByte | matchEmpty | matchEod | matchFull => exact h.writeM hvals.1
  | removeLowest => exact h.writeM hvals
  | convert | staticEmpty => exact h.writeOut hvals.1
  | lowest =>
    have hlane : lowestLane s.cfg s.m = lowestLane t.cfg t.m := hvals.1
    have hsome : laneSomeFlag s.m = laneSomeFlag t.m := hvals.2.1
    rw [Machine.written, Machine.written, ← hlane, ← hsome]
    exact h.lift (·.writeLane _ _) (·.writeLane _ _) fun _ => rfl
  | any =>
    have hany : anyFlag s.m = anyFlag t.m := hvals.1
    rw [Machine.written, Machine.written, ← hany]
    exact h.lift (·.writeAny _) (·.writeAny _) fun _ => rfl

theorem State.SameVisible.requested (h : s.SameVisible t) (i : Instr) : (requested i s).SameVisible (requested i t) := by
  cases i with
  | load a =>
    refine h.lift (Machine.requested (.load a)) (Machine.requested (.load a)) fun v => ?_
    have hcheck : (v.misaligned a || v.pastTop a) = (v.visible.misaligned a || v.visible.pastTop a) := rfl
    simp only [Machine.requested, hcheck]
    split <;> rfl
  | _ => exact h

/-- A command answers states that agree. -/
theorem State.SameVisible.exec (h : s.SameVisible t) (i : Instr) : SameOutcome (exec i s) (exec i t) := by
  have hfaulted : s.faulted = t.faulted := h.same State.faulted fun _ => rfl
  have hfailing : failing i s = failing i t := h.same (failing i) (failing_visible i)
  cases hf : t.faulted with
  | true =>
    rw [exec_of_faulted (hfaulted.trans hf), exec_of_faulted hf]
    exact h.complete .rejected
  | false =>
    cases hc : failing i t with
    | none =>
      rw [exec_of_passing (hfaulted.trans hf) (hfailing.trans hc), exec_of_passing hf hc]
      exact (h.written (hfailing.trans hc)).complete .ok
    | some f =>
      rw [exec_of_failing (hfaulted.trans hf) (hfailing.trans hc), exec_of_failing hf hc]
      exact (h.requested i).raiseFault f _ _

/-! ## Steps -/

theorem State.SameVisible.hostStore (h : s.SameVisible t) (a : Nat) (b : Byte) :
    SameOutcome (s.hostStore a b) (t.hostStore a b) := by
  have hspace : s.inSpace a = t.inSpace a := h.same (·.inSpace a) fun _ => rfl
  unfold State.hostStore
  rw [hspace]
  split
  · exact h.storeAll [(a, b)]
  · rfl

theorem State.SameVisible.hostUnmap (h : s.SameVisible t) (a : Nat) :
    SameOutcome (s.hostUnmap a) (t.hostUnmap a) := by
  have hspace : s.inSpace a = t.inSpace a := h.same (·.inSpace a) fun _ => rfl
  unfold State.hostUnmap
  rw [hspace]
  split
  · exact h.lift (fun v => { v with mem := Memory.erase v.mem a }) (fun v => { v with mem := Memory.erase v.mem a })
      fun _ => rfl
  · rfl

theorem State.SameVisible.driveRst (h : s.SameVisible t) (level : Bool) :
    (s.driveRst level).SameVisible (t.driveRst level) := by
  cases level with
  | true => exact h.assertRst
  | false => exact h.lift (·.releaseRst) (·.releaseRst) fun _ => rfl

theorem State.SameVisible.illegalCommand (h : s.SameVisible t) (word : CmdWord) :
    (s.illegalCommand word).SameVisible (t.illegalCommand word) := by
  have hfaulted : s.faulted = t.faulted := h.same State.faulted fun _ => rfl
  unfold State.illegalCommand State.unlessFaulted
  rw [hfaulted]
  split
  · exact h.complete .rejected
  · exact h.raiseFault .illegal word 0

theorem sameOutcome_andThen {o p : Host.Outcome State Fault Refusal} (h : SameOutcome o p) {f : State → State}
    (hf : ∀ u v : State, u.SameVisible v → (f u).SameVisible (f v)) : SameOutcome (andThen o f) (andThen p f) := by
  cases o <;> cases p <;> simp_all [SameOutcome, andThen]

theorem State.SameVisible.runCommand (h : s.SameVisible t) (word : CmdWord) (addr : Nat) (during : List Host.Cell) :
    SameOutcome (runCommand word addr during s) (runCommand word addr during t) := by
  have hcfg : s.cfg = t.cfg := h.same State.cfg fun _ => rfl
  unfold Machine.runCommand
  rw [hcfg]
  split
  · exact ((h.accept during).illegalCommand word).closeWindow
  · next i _ =>
    split
    · exact sameOutcome_andThen ((h.accept during).exec i) fun _ _ => State.SameVisible.closeWindow
    · rfl

theorem State.SameVisible.presentCommand (h : s.SameVisible t) (word : CmdWord) (addr : Nat) (during : List Host.Cell)
    (abort : Bool) : SameOutcome (presentCommand word addr during abort s) (presentCommand word addr during abort t) := by
  have houtside : s.firstOutside during = t.firstOutside during := h.same (·.firstOutside during) fun _ => rfl
  have hready : s.cmdReady = t.cmdReady := h.same State.cmdReady fun _ => rfl
  unfold Machine.presentCommand
  rw [houtside, hready]
  split
  · rfl
  · split
    · cases abort with
      | true => exact (h.storeAll during).assertRst
      | false => exact h.storeAll during
    · split
      · exact (h.accept during).closeWindow.assertRst
      · exact h.runCommand word addr during

/-! ## Outputs -/

/-- What an output shows of a register, by `f`, under a condition `shown` is the same when the register is replaced
while a bit that `shown` implies is 0. -/
theorem shown_eq {α β : Type} (f : α → β) {valid shown : Bool} (h : shown = true → valid = true) (x y : α) (d : β) :
    (if shown = true then f (if valid = true then x else y) else d) = if shown = true then f x else d :=
  ite_congr rfl (fun hs => congrArg f (if_pos (h hs))) fun _ => rfl

/-- Every output is computed from the visible part: the data outputs show a register behind its valid bit alone
(10_state.md R36). -/
theorem ports_visible (s : State) (n : Nat) : s.visible.ports n = s.ports n := by
  have hand : ∀ b c : Bool, (b && c) = true → b = true := by decide
  have hcode := shown_eq RspCode.code (fun h : s.rspValid = true => h) s.rspCode .ok
    (BitVec.ofNat 2 (Config.freeRspCode n).val)
  have hm := shown_eq id (hand s.mValid (!s.busy)) s.m 0#128
  have hlane := shown_eq id (hand s.laneValid (!s.busy)) s.lane 0
  have hsome := shown_eq id (hand s.laneValid (!s.busy)) s.laneSome false
  have hany := shown_eq id (hand s.anyValid (!s.busy)) s.anyf false
  have hout := shown_eq packBytes (hand s.outValid (!s.busy)) s.out []
  unfold State.ports
  rw [Ports.mk.injEq]
  exact ⟨rfl, rfl, hcode, rfl, rfl, hm _, rfl, hlane _, hsome _, rfl, hany _, rfl, hout _, rfl, rfl, rfl, rfl⟩

end Sys2Proof.Machine

namespace Sys2Proof.Claims

open Sys2Proof.Machine

/-- Settles O19: each action of the host is answered alike, and the checks and results of a command are visible. -/
theorem hiddenRegistersDecideNothing : Obligations.HiddenRegistersDecideNothing := by
  intro s t h
  have hhost : s.host = t.host := h.same State.host fun _ => rfl
  cases hh : t.host with
  | nil =>
    simp only [step, hhost, hh]
    exact h
  | cons e rest =>
    have htaken : State.SameVisible { s with host := rest } { t with host := rest } :=
      h.lift (fun v => { v with host := rest }) (fun v => { v with host := rest }) fun _ => rfl
    simp only [step, hhost, hh]
    cases e with
    | store a b => exact htaken.hostStore a b
    | unmap a => exact htaken.hostUnmap a
    | rst level => exact htaken.driveRst level
    | command word addr during abort => exact htaken.presentCommand word addr during abort

/-- Settles O20: every output is computed from the visible part. -/
theorem outputsShowNoHiddenRegister : Obligations.OutputsShowNoHiddenRegister := by
  intro s t n h
  exact h.same (·.ports n) fun v => (ports_visible v n).symm

end Sys2Proof.Claims
end

section
/-! What the ports show: OUT_BYTES, the ranges of RSP_CODE and MEM_REQ_ADDR, and the read channel (10_state.md R27, R33,
20_memory.md R49, R52). -/

namespace Sys2Proof.Machine

/-- Bit k of a packing is bit k mod 8 of entry k / 8, in the 128 bits of the carrier. -/
theorem getLsbD_packBytes (bytes : List Byte) {k : Nat} (hk : k < 128) :
    (packBytes bytes).getLsbD k = (bytes.getD (k / 8) 0#8).getLsbD (k % 8) := by
  induction bytes generalizing k with
  | nil => simp [packBytes]
  | cons b rest ih =>
    rcases Nat.lt_or_ge k 8 with h8 | h8
    · simp [packBytes, hk, h8, Nat.div_eq_of_lt h8, Nat.mod_eq_of_lt h8]
    · have hdiv : k / 8 = (k - 8) / 8 + 1 := by omega
      have hmod : k % 8 = (k - 8) % 8 := by omega
      have hk' : k - 8 < 128 := by omega
      rw [hdiv, hmod, List.getD_cons_succ, ← ih hk']
      simp [packBytes, hk, hk', h8]

/-- Bits [8i+7:8i] of a packing are entry i. -/
theorem packBytes_extract (bytes : List Byte) {i : Nat} (h : i < 16) :
    (packBytes bytes).extractLsb' (8 * i) 8 = bytes.getD i 0#8 := by
  apply BitVec.eq_of_getLsbD_eq
  intro k hk
  have hdiv : (8 * i + k) / 8 = i := by omega
  have hmod : (8 * i + k) % 8 = k := by omega
  rw [BitVec.getLsbD_extractLsb', getLsbD_packBytes bytes (by omega), hdiv, hmod, decide_eq_true hk, Bool.true_and]

/-- A LOAD that passes R50 and R51 has requested its group (20_memory.md R52). -/
theorem memReqs_of_load {s t : State} {a : Nat} (hf : s.faulted = false) (ha : a % s.cfg.alignWidth = 0)
    (ht : a + s.cfg.width ≤ 2 ^ s.cfg.addrWidth) (hx : exec (.load a) s = .next t) : t.memReqs = s.groupAddrs a := by
  have hm : s.misaligned a = false := (s.misaligned_eq_false a).2 ha
  have hp : s.pastTop a = false := (s.pastTop_eq_false a).2 ht
  rcases exec_cases hx with ⟨hfaulted, -⟩ | ⟨-, -, rfl⟩ | ⟨-, f, -, rfl⟩
  · simp [hf] at hfaulted
  · rfl
  · simp [requested, hm, hp]

@[simp] theorem State.groupAddrs_length (s : State) (a : Nat) : (s.groupAddrs a).length = s.cfg.width := by
  simp [State.groupAddrs]

theorem State.groupAddrs_nodup (s : State) (a : Nat) : (s.groupAddrs a).Nodup :=
  List.nodup_range.map (add_right_injective a)

theorem State.mem_groupAddrs (s : State) (a x : Nat) : x ∈ s.groupAddrs a ↔ a ≤ x ∧ x < a + s.cfg.width := by
  rw [State.groupAddrs, List.mem_map]
  constructor
  · rintro ⟨i, hi, rfl⟩
    have := List.mem_range.1 hi
    omega
  · rintro ⟨hle, hlt⟩
    exact ⟨x - a, List.mem_range.2 (by omega), by omega⟩

end Sys2Proof.Machine

namespace Sys2Proof.Claims

open Sys2Proof.Machine

/-- Settles O54: the output is the packing of OUT, at most sixteen bytes. -/
theorem outBytesPackTheLanes : Obligations.OutBytesPackTheLanes := by
  intro s n i _ hvalid hbusy hi
  have hout : (s.ports n).outBytes = packBytes s.out := if_pos (by rw [hvalid, hbusy]; rfl)
  have hi16 : i < 16 := by rcases s.cfg.width_cases with h | h | h <;> omega
  rw [hout, packBytes_extract _ hi16, State.outLane]

/-- Settles O55: the code of a response, or one of three free values; an address cut to its port. -/
theorem portsStayInRange : Obligations.PortsStayInRange := by
  intro s n
  refine ⟨?_, s.idleMemReqAddr_lt n⟩
  have hfree : ∀ v : Fin 3, BitVec.ofNat 2 v.val ≠ 3#2 := by decide
  simp only [State.ports]
  split
  · exact s.rspCode.code_ne_three
  · exact hfree _

/-- Settles O56: the record of requests is the group's addresses, each once, and the free order shows each entry once. -/
theorem readChannelShowsTheGroup : Obligations.ReadChannelShowsTheGroup := by
  refine ⟨fun s t a n hf ha htop hx => ?_, fun i s t n k hi hnone hx => ?_⟩
  · have hreqs : t.memReqs = s.groupAddrs a := memReqs_of_load hf ha htop hx
    have hlen : t.memReqs.length = s.cfg.width := by rw [hreqs, State.groupAddrs_length]
    have hmem : ∀ x, x ∈ t.memReqs ↔ a ≤ x ∧ x < a + s.cfg.width := fun x => by rw [hreqs, State.mem_groupAddrs]
    have hnodup : t.memReqs.Nodup := hreqs ▸ s.groupAddrs_nodup a
    rw [← hlen]
    refine ⟨t.memRequest_valid n, fun k hk => ?_, fun x hle hlt => ?_⟩
    · rw [hlen, ← hmem]
      exact t.memRequest_addr_mem n hk
    · obtain ⟨k, hk, hshow⟩ := t.memRequest_shows n ((hmem x).2 ⟨hle, hlen ▸ hlt⟩)
      exact ⟨k, hk, hshow, fun j hj he => t.memRequest_once n hnodup hj hk (he.trans hshow.symm)⟩
  · have hreqs : t.memReqs = [] := (memReqs_of_exec hi hx).trans hnone
    rw [← Bool.not_eq_true, State.memRequest_valid, hreqs]
    exact Nat.not_lt_zero k

end Sys2Proof.Claims
end

section
/-! What the host's next action does: the decoded command or the fetch word is run, and reset gives the values of
10_state.md R40. -/

namespace Sys2Proof.Claims

open Sys2Proof.Machine

/-- Settles O6: an accepted event that decodes meets the premises of `step_of_command`. -/
theorem stepRunsTheDecodedCommand : Obligations.StepRunsTheDecodedCommand := by
  intro s word addr during rest i haccepts hd
  obtain ⟨hhost, hready, hfits⟩ := haccepts
  obtain ⟨hduring, hwf⟩ := State.fits_of_eventFits hfits
  exact step_of_command hhost hready hduring hd (hwf i hd)

theorem decode_of_decodeTableWord {nbits w : Nat} {i : Instr} (h : decodeTableWord nbits w = some i) :
    decode (tableCmdWord nbits w) (tableCmdAddr nbits w) = .ok i := by
  unfold decodeTableWord at h
  cases hd : decode (tableCmdWord nbits w) (tableCmdAddr nbits w) with
  | error e => rw [hd] at h; cases h
  | ok j => rw [hd] at h; cases h; rfl

/-- Settles O7: the fetch word is an event with no write in its window, met while the matcher is ready. -/
theorem stepRunsTheFetchWord : Obligations.StepRunsTheFetchWord := by
  intro s nbits w i hd hwf
  exact step_of_command (s := s.withFetchWord nbits w) rfl rfl (by simp) (decode_of_decodeTableWord hd) hwf

/-- Settles O11: the two steps of the host's pulse on RST, each computed from the operation it runs. -/
theorem resetStateHasTheSpecsValues : Obligations.ResetStateHasTheSpecsValues := by
  intro s rest hhost
  have hassert : step s = .next (State.assertRst { s with host := .rst false :: rest }) := by rw [step, hhost]; rfl
  exact ⟨_, State.releaseRst { State.assertRst { s with host := .rst false :: rest } with host := rest }, hassert, rfl,
    rfl, rfl, rfl, rfl, rfl, rfl, rfl, rfl, rfl, rfl, rfl, fun _ => rfl, rfl⟩

end Sys2Proof.Claims
end

section
/-! The control-byte memory from both sides: what the host's writes and unmaps do, the checks a LOAD makes of its
address and its bytes, and what it requests (20_memory.md R45 to R56). -/

namespace Sys2Proof.Machine

open Sys2Proof.Claims

/-! ## The host's actions -/

/-- A host write inside the address space is a store to memory and nothing else (20_memory.md R56). -/
theorem step_of_store {s : State} {a : Nat} {b : Byte} {rest : List HostEvent} (hhost : s.host = .store a b :: rest)
    (ha : a < 2 ^ s.cfg.addrWidth) : step s = .next { s with host := rest, mem := Memory.store s.mem a b } := by
  rw [step, hhost]
  exact if_pos (decide_eq_true ha)

/-- A host write outside the address space stops the model (20_memory.md R45, log 12). -/
theorem step_of_store_outside {s : State} {a : Nat} {b : Byte} {rest : List HostEvent}
    (hhost : s.host = .store a b :: rest) (ha : 2 ^ s.cfg.addrWidth ≤ a) :
    step s = .fault (.outsideAddressSpace a) := by
  rw [step, hhost]
  exact if_neg (by simp [State.inSpace, ha])

/-- The only next state of a host write is the one with the byte stored. -/
theorem next_of_store {s t : State} {a : Nat} {b : Byte} {rest : List HostEvent}
    (hhost : s.host = .store a b :: rest) (hstep : step s = .next t) :
    t = { s with host := rest, mem := Memory.store s.mem a b } := by
  rcases Nat.lt_or_ge a (2 ^ s.cfg.addrWidth) with ha | ha
  · cases (step_of_store hhost ha).symm.trans hstep
    rfl
  · cases (step_of_store_outside hhost ha).symm.trans hstep

/-- An unmap outside the address space stops the model (20_memory.md R45, log 12). -/
theorem step_of_unmap_outside {s : State} {a : Nat} {rest : List HostEvent}
    (hhost : s.host = .unmap a :: rest) (ha : 2 ^ s.cfg.addrWidth ≤ a) :
    step s = .fault (.outsideAddressSpace a) := by
  rw [step, hhost]
  exact if_neg (by simp [State.inSpace, ha])

/-- A command whose operand does not fit its port is refused once it is accepted (10_state.md R33, log 12). -/
theorem step_of_wide_operand {s : State} {word : CmdWord} {addr : Nat} {during : List Host.Cell}
    {rest : List HostEvent} {i : Instr} (hhost : s.host = .command word addr during false :: rest)
    (hready : s.cmdReady = true) (hduring : ∀ w ∈ during, w.1 < 2 ^ s.cfg.addrWidth)
    (hdecode : decode word addr = .ok i) (hwf : i.wf s.cfg = false) :
    step s = .refused (.cmdAddrTooWide addr) := by
  have hinside : State.firstOutside { s with host := rest } during = none :=
    (State.firstOutside_eq_none _ _).2 hduring
  have hready' : State.cmdReady { s with host := rest } = true := hready
  simp [step, hhost, presentCommand, hinside, hready', runCommand, hdecode, hwf]

/-! ## The outcome of a LOAD, by its checks -/

/-- The command word of LOAD (30_encoding.md R68). -/
@[simp] theorem encodeWord_load (a : Nat) : encodeWord (.load a) = 0x0100#16 := by
  rw [encodeWord, Instr.opc, Instr.imm]
  decide

/-- Taking a fault, in the words of the statements (60_exceptions.md R126, R127). -/
theorem State.raiseFault_eq_answeredFault (s : State) (f : FaultCode) (word : CmdWord) (faddr : Nat) :
    s.raiseFault f word faddr = answeredFault s (statusOf f) word faddr := by
  cases f <;> rfl

/-- A byte answers a LOAD exactly when its lane has an answer (20_memory.md R49). -/
theorem laneAnswers_iff (s : State) (a i : Nat) : LaneAnswers s a i ↔ (s.laneAnswer a i).isSome = true := by
  rw [State.laneAnswer_isSome, Bool.or_eq_true]
  rfl

variable {s : State} {a : Nat}

theorem failing_load_of_misaligned (halign : a % s.cfg.alignWidth ≠ 0) : failing (.load a) s = some .misaligned :=
  if_pos ((s.misaligned_eq_true a).2 halign)

theorem failing_load_of_pastTop (halign : a % s.cfg.alignWidth = 0) (htop : 2 ^ s.cfg.addrWidth < a + s.cfg.width) :
    failing (.load a) s = some .bus := by
  simp [failing, (s.misaligned_eq_false a).2 halign, (s.pastTop_eq_true a).2 htop]

/-- Once its address has passed, the bytes decide whether a LOAD fails (60_exceptions.md R130). -/
theorem failing_load_of_inRange (halign : a % s.cfg.alignWidth = 0) (htop : a + s.cfg.width ≤ 2 ^ s.cfg.addrWidth) :
    failing (.load a) s = if s.groupReadable a then none else some .bus := by
  simp [failing, (s.misaligned_eq_false a).2 halign, (s.pastTop_eq_false a).2 htop]

/-- A LOAD requests nothing where its address fails a check (20_memory.md R50, R51). -/
theorem requested_load_of_badAddress (h : a % s.cfg.alignWidth ≠ 0 ∨ 2 ^ s.cfg.addrWidth < a + s.cfg.width) :
    requested (.load a) s = s :=
  if_pos (by simpa [State.misaligned_eq_true, State.pastTop_eq_true] using h)

/-- A LOAD whose address passes requests its group (20_memory.md R52). -/
theorem requested_load_of_inRange (halign : a % s.cfg.alignWidth = 0)
    (htop : a + s.cfg.width ≤ 2 ^ s.cfg.addrWidth) : requested (.load a) s = s.requestGroup a := by
  simp [requested, (s.misaligned_eq_false a).2 halign, (s.pastTop_eq_false a).2 htop]

/-- A LOAD that fails a check completes with the record of that fault (60_exceptions.md R127). -/
theorem exec_load_of_failing {f : FaultCode} (hs : s.faulted = false) (hfail : failing (.load a) s = some f) :
    exec (.load a) s = .next (answeredFault (requested (.load a) s) (statusOf f) 0x0100#16 a) := by
  rw [exec_of_failing hs hfail, State.raiseFault_eq_answeredFault, encodeWord_load]
  rfl

/-- A LOAD all of whose bytes answer passes its checks (40_group_ops.md R86). -/
theorem failing_load_of_answers (halign : a % s.cfg.alignWidth = 0) (htop : a + s.cfg.width ≤ 2 ^ s.cfg.addrWidth)
    (hanswers : ∀ i < s.cfg.width, LaneAnswers s a i) : failing (.load a) s = none := by
  rw [failing_load_of_inRange halign htop]
  exact if_pos ((s.groupReadable_iff a).2 fun i hi => (laneAnswers_iff s a i).1 (hanswers i hi))

/-- A LOAD one of whose bytes answers an error fails BUS (40_group_ops.md R86). -/
theorem failing_load_of_unanswered {i : Nat} (halign : a % s.cfg.alignWidth = 0)
    (htop : a + s.cfg.width ≤ 2 ^ s.cfg.addrWidth) (hi : i < s.cfg.width) (herror : ¬ LaneAnswers s a i) :
    failing (.load a) s = some .bus := by
  rw [failing_load_of_inRange halign htop]
  exact if_neg fun hall => herror ((laneAnswers_iff s a i).2 ((s.groupReadable_iff a).1 hall i hi))

end Sys2Proof.Machine

namespace Sys2Proof.Claims

open Sys2Proof.Machine

/-- Settles O27: the address passes both checks, so the group is requested before the error answer is taken as BUS. -/
theorem unreadableLoadFaults : Obligations.UnreadableLoadFaults := by
  intro s a i hs halign htop hi herror
  rw [exec_load_of_failing hs (failing_load_of_unanswered halign htop hi herror),
    requested_load_of_inRange halign htop]
  rfl

/-- Settles O28: the record of requests is the list of the group's addresses. -/
theorem loadRequestsItsGroupOnce : Obligations.LoadRequestsItsGroupOnce := by
  intro s t a hs halign htop hx
  rw [memReqs_of_load hs halign htop hx]
  exact ⟨s.groupAddrs_length a, s.groupAddrs_nodup a, s.mem_groupAddrs a⟩

/-- Settles O31: every byte of the group is readable after the write, so the LOAD passes, and with no write in its
window lane i is what memory holds. -/
theorem loadReadsTheCompletedWrite : Obligations.LoadReadsTheCompletedWrite := by
  intro s t rest a i b hhost hstep hi ht halign htop hquiet hreadable
  have hmem : t.mem = Memory.store s.mem (a + i) b := by rw [next_of_store hhost hstep]
  have hwritten : Memory.lookup t.mem (a + i) = some b := by rw [hmem, Memory.lookup_store_same]
  have hanswers : ∀ j < t.cfg.width, LaneAnswers t a j := by
    intro j hj
    right
    by_cases hji : j = i
    · rw [hji, hwritten]
      rfl
    · rw [hmem, Memory.lookup_store_other _ _ (by omega)]
      exact hreadable j hj hji
  refine ⟨_, exec_of_passing ht (failing_load_of_answers halign htop hanswers), rfl, ?_⟩
  calc (t.groupBytes a).getD i 0#8 = (t.laneAnswer a i).getD 0#8 := t.groupBytes_getD a hi
    _ = b := by rw [State.laneAnswer_of_quiet (hquiet i hi), hwritten, Option.getD_some]

/-- Settles O13: the two host actions fault on the address, and no LOAD with it as its operand is well-formed. -/
theorem outsideAddressesStop : Obligations.OutsideAddressesStop := by
  intro s rest a ha
  refine ⟨fun b hhost => step_of_store_outside hhost ha, fun hhost => step_of_unmap_outside hhost ha,
    fun word hhost hready hdecode => ?_⟩
  exact step_of_wide_operand hhost hready (by simp) hdecode (decide_eq_false (Nat.not_lt.2 ha))

/-- Settles O23: the step is a store, which the laws of memory describe. -/
theorem hostWriteChangesOneByte : Obligations.HostWriteChangesOneByte := by
  intro s rest a b hhost ha
  exact ⟨_, step_of_store hhost ha, rfl, Memory.lookup_store_same s.mem a b,
    fun x hx => Memory.lookup_store_other s.mem b hx⟩

/-- Settles O25: MISALIGNED is the first check of LOAD, made before any request; every number is a multiple of 1. -/
theorem misalignedLoadFaults : Obligations.MisalignedLoadFaults := by
  refine ⟨fun s a hs halign => ?_, fun s a hone => by rw [hone, Nat.mod_one]⟩
  rw [exec_load_of_failing hs (failing_load_of_misaligned halign), requested_load_of_badAddress (.inl halign)]
  rfl

/-- Settles O26: the range check comes before any request. Where WIDTH divides both the address and 2^ADDR_WIDTH, the
group that starts below the top ends at or below it. -/
theorem loadPastTheTopFaults : Obligations.LoadPastTheTopFaults := by
  refine ⟨fun s a hs halign htop => ?_, fun c a hwidth hdvd ha halign => ?_⟩
  · rw [exec_load_of_failing hs (failing_load_of_pastTop halign htop), requested_load_of_badAddress (.inr htop)]
    rfl
  · have hdvda : c.width ∣ a := Nat.dvd_of_mod_eq_zero (hwidth ▸ halign)
    exact Nat.le_of_lt_add_of_dvd (Nat.add_lt_add_right ha c.width) (hdvda.add (dvd_refl _)) hdvd

end Sys2Proof.Claims
end

section
/-! Encoding (30_encoding.md R65 to R77). A word decodes to a command exactly when its three fields are the command's, so
the encoder and the decoder undo each other, and the legal words are those of the commands with 0 on CMD_ADDR. -/

namespace Sys2Proof

variable {w : CmdWord} {addr : Nat} {i : Instr}

/-! ## The decoder and the encoder undo each other -/

/-- A word with RSV 0 and the other two fields of a command decodes to it; LOAD takes its operand from CMD_ADDR
(30_encoding.md R66, R72). -/
theorem decode_of_fields (hrsv : rsvField w = 0#4) (hopc : opcField w = i.opc) (himm : immField w = i.imm)
    (hload : ∀ a, i = .load a → a = addr) : decode w addr = .ok i := by
  cases i with
  | load a =>
    obtain rfl := hload a rfl
    simp [decode, decodePlain, hrsv, hopc, himm, Instr.opc, Instr.imm]
  | matchByte b => simp [decode, hrsv, hopc, himm, Instr.opc, Instr.imm]
  | _ => simp [decode, decodePlain, hrsv, hopc, himm, Instr.opc, Instr.imm]

/-- CMD_WORD of a command decodes to it wherever CMD_ADDR is LOAD's operand (30_encoding.md R66, R74). -/
theorem decode_encodeWord (hload : ∀ a, i = .load a → a = addr) : decode (encodeWord i) addr = .ok i :=
  decode_of_fields (rsvField_encodeWord i) (opcField_encodeWord i) (immField_encodeWord i) hload

/-- A word that decodes is CMD_WORD of its command (30_encoding.md R70). -/
theorem encodeWord_of_decode (h : decode w addr = .ok i) : encodeWord i = w := by
  obtain ⟨hrsv, hopc, himm, -⟩ := decode_eq_ok h
  rw [word_of_fields hrsv, hopc, himm, encodeWord]

/-- Only LOAD reads CMD_ADDR (30_encoding.md R66). -/
theorem decode_anyAddr (h : decode w addr = .ok i) (hi : ∀ a, i ≠ .load a) (addr' : Nat) : decode w addr' = .ok i := by
  obtain ⟨hrsv, hopc, himm, -⟩ := decode_eq_ok h
  exact decode_of_fields hrsv hopc himm fun a ha => absurd ha (hi a)

/-! ## The legal words -/

/-- The OPC values without a command (30_encoding.md R69). -/
def unusedOpcodes : List (BitVec 4) := [0x0#4, 0xB#4, 0xC#4, 0xD#4, 0xE#4, 0xF#4]

theorem Instr.opc_notMem_unusedOpcodes (i : Instr) : i.opc ∉ unusedOpcodes := by
  cases i <;> simp [Instr.opc, unusedOpcodes]

/-- Only MATCH_BYTE has an immediate (30_encoding.md R67). -/
theorem Instr.opc_eq_two_or_imm_eq_zero (i : Instr) : i.opc = 0x2#4 ∨ i.imm = 0#8 := by
  cases i with
  | matchByte b => exact .inl rfl
  | _ => exact .inr rfl

/-- Every used OPC has its command with IMM8 0 (30_encoding.md R68). -/
theorem exists_instr_of_opc {o : BitVec 4} (ho : o ∉ unusedOpcodes) (addr : Nat) :
    ∃ i : Instr, i.opc = o ∧ i.imm = 0#8 ∧ ∀ a, i = .load a → a = addr := by
  have hused : ∀ o : BitVec 4, o ∉ unusedOpcodes → o = 0x1#4 ∨ o = 0x2#4 ∨ o = 0x3#4 ∨ o = 0x4#4 ∨ o = 0x5#4 ∨
      o = 0x6#4 ∨ o = 0x7#4 ∨ o = 0x8#4 ∨ o = 0x9#4 ∨ o = 0xA#4 := by decide
  rcases hused o ho with rfl | rfl | rfl | rfl | rfl | rfl | rfl | rfl | rfl | rfl
  · exact ⟨.load addr, rfl, rfl, fun a ha => (Instr.load.inj ha).symm⟩
  · exact ⟨.matchByte 0#8, rfl, rfl, nofun⟩
  · exact ⟨.matchEmpty, rfl, rfl, nofun⟩
  · exact ⟨.matchEod, rfl, rfl, nofun⟩
  · exact ⟨.matchFull, rfl, rfl, nofun⟩
  · exact ⟨.convert, rfl, rfl, nofun⟩
  · exact ⟨.staticEmpty, rfl, rfl, nofun⟩
  · exact ⟨.lowest, rfl, rfl, nofun⟩
  · exact ⟨.removeLowest, rfl, rfl, nofun⟩
  · exact ⟨.any, rfl, rfl, nofun⟩

/-- The legal words, by their fields (30_encoding.md R69). -/
theorem exists_decode_iff (w : CmdWord) (addr : Nat) :
    (∃ i, decode w addr = .ok i) ↔
      rsvField w = 0#4 ∧ opcField w ∉ unusedOpcodes ∧ (opcField w = 0x2#4 ∨ immField w = 0#8) := by
  constructor
  · rintro ⟨i, h⟩
    obtain ⟨hrsv, hopc, himm, -⟩ := decode_eq_ok h
    rw [hopc, himm]
    exact ⟨hrsv, i.opc_notMem_unusedOpcodes, i.opc_eq_two_or_imm_eq_zero⟩
  · rintro ⟨hrsv, hused, hmatch | hzero⟩
    · exact ⟨.matchByte (immField w), decode_of_fields hrsv hmatch rfl nofun⟩
    · obtain ⟨i, hopc, himm, hload⟩ := exists_instr_of_opc hused addr
      exact ⟨i, decode_of_fields hrsv hopc.symm (hzero.trans himm.symm) hload⟩

/-- The decoder refuses exactly the words it gives no command for. -/
theorem exists_error_iff (w : CmdWord) (addr : Nat) :
    (∃ e, decode w addr = .error e) ↔ ¬ ∃ i, decode w addr = .ok i := by
  cases decode w addr <;> simp

/-! ## Counting the legal words -/

/-- The commands with 0 on CMD_ADDR: nine with a fixed word, and MATCH_BYTE with each byte (30_encoding.md R69). -/
def commandsAtZero : Finset Instr :=
  {.load 0, .matchEmpty, .matchEod, .matchFull, .convert, .staticEmpty, .lowest, .removeLowest, .any} ∪
    Finset.univ.image .matchByte

theorem mem_commandsAtZero : i ∈ commandsAtZero ↔ ∀ a, i = .load a → a = 0 := by
  cases i <;> simp [commandsAtZero]

theorem card_commandsAtZero : commandsAtZero.card = 9 + 256 := by
  have hinj : Function.Injective Instr.matchByte := fun _ _ => Instr.matchByte.inj
  rw [commandsAtZero, Finset.card_union_of_disjoint (by simp [Finset.disjoint_left]),
    Finset.card_image_of_injective _ hinj, Finset.card_univ, ← FinEnum.card_eq_fintypeCard, FinEnum.card_bitVec]
  rfl

/-- With 0 on CMD_ADDR, the words that decode are the words of these commands, each its own. -/
theorem legalWords_eq_image :
    Finset.univ.filter (fun w : CmdWord => (decode w 0).toOption.isSome = true) = commandsAtZero.image encodeWord := by
  ext w
  have hlegal : (decode w 0).toOption.isSome = true ↔ ∃ i, decode w 0 = .ok i := by
    cases decode w 0 <;> simp [Except.toOption]
  simp only [Finset.mem_filter, Finset.mem_univ, true_and, hlegal, Finset.mem_image, mem_commandsAtZero]
  constructor
  · rintro ⟨i, h⟩
    obtain ⟨-, -, -, hload⟩ := decode_eq_ok h
    exact ⟨i, hload, encodeWord_of_decode h⟩
  · rintro ⟨i, hload, rfl⟩
    exact ⟨i, decode_encodeWord hload⟩

theorem encodeWord_injOn_commandsAtZero : Set.InjOn encodeWord commandsAtZero := by
  intro i hi j hj hij
  have hdecode := decode_encodeWord (mem_commandsAtZero.1 hi)
  rw [hij, decode_encodeWord (mem_commandsAtZero.1 hj)] at hdecode
  exact (Except.ok.inj hdecode).symm

/-! ## Words of the assembler -/

/-- CMD_WORD of MATCH_BYTE (30_encoding.md R74). -/
theorem encodeWord_matchByte (b : Byte) : encodeWord (.matchByte b) = 0x0200#16 ||| b.setWidth 16 := rfl

theorem setWidth_ofNat_of_le {h : Nat} (hh : h ≤ 0x7F) : (BitVec.ofNat 8 h).setWidth 16 = BitVec.ofNat 16 h := by
  apply BitVec.eq_of_toNat_eq
  simp only [BitVec.toNat_setWidth, BitVec.toNat_ofNat]
  omega

end Sys2Proof

namespace Sys2Proof.Claims

open Sys2Proof.Machine

/-- Settles O1: the word has the command's fields, and CMD_ADDR is LOAD's operand. -/
theorem decodeOfEncodeIsTheCommand : Obligations.DecodeOfEncodeIsTheCommand := by
  intro i
  apply decode_encodeWord
  rintro a rfl
  rfl

/-- Settles O2: the fields of a word that decodes are its command's, and a command other than LOAD has no address. -/
theorem encodeOfDecodeIsTheWord : Obligations.EncodeOfDecodeIsTheWord := by
  intro w addr i h
  refine ⟨encodeWord_of_decode h, ?_⟩
  cases i with
  | load a =>
    obtain ⟨-, -, -, hload⟩ := decode_eq_ok h
    exact .inl (congrArg Instr.load (hload a rfl))
  | _ => exact .inr (decode_anyAddr h nofun)

/-- Settles O3: the illegal words are those outside `exists_decode_iff`; the legal ones are counted by their commands;
and outside the fault state an illegal command takes the fault ILLEGAL. -/
theorem illegalWordsAreExactlyThese : Obligations.IllegalWordsAreExactlyThese := by
  refine ⟨fun w addr => ?_, ?_, fun s word addr during rest e haccepts hs hd => ?_⟩
  · rw [exists_error_iff, exists_decode_iff, not_and_or, not_and_or, not_or, not_not]
    rfl
  · rw [legalWords_eq_image, Finset.card_image_of_injOn encodeWord_injOn_commandsAtZero, card_commandsAtZero]
  · obtain ⟨hhost, hready, hfits⟩ := haccepts
    have hrunning : (running s during rest).faulted = false := hs
    rw [step_of_illegal hhost hready (State.fits_of_eventFits hfits).1 hd, State.illegalCommand,
      State.unlessFaulted_of_running hrunning, State.raiseFault_eq_answeredFault]
    rfl

/-- Settles O4: the decoder evaluated on each word. -/
theorem sampleWordsDecode : Obligations.SampleWordsDecode :=
  ⟨rfl, rfl, rfl, rfl, rfl, rfl, rfl, rfl, rfl, rfl⟩

/-- Settles O5: both byte pseudo-instructions are a MATCH_BYTE, and an H2 up to 0x7F is the same number as a byte and as
a word. -/
theorem pseudoInstructionsExpand : Obligations.PseudoInstructionsExpand := by
  intro c
  refine ⟨rfl, fun h hh => ?_, fun h hh => ?_, rfl⟩
  · rw [Asm.words, Asm.expand, if_pos hh, ← setWidth_ofNat_of_le hh, ← encodeWord_matchByte]
    rfl
  · rw [Asm.words, Asm.expand, if_neg (Nat.not_le.2 hh)]

end Sys2Proof.Claims
end

section
/-! LOAD's outcomes (40_group_ops.md R86 to R88): it fills the group with the bytes it reads, or it leaves G as it was. -/

namespace Sys2Proof.Machine

open Sys2Proof.Claims

/-- The byte a LOAD reads in a lane is the lane's answer (20_memory.md R49, R55). -/
theorem laneHolds_iff (s : State) (a i : Nat) (b : Byte) : LaneHolds s a i b ↔ s.laneAnswer a i = some b := by
  unfold LaneHolds
  cases hraced : s.raced (a + i) with
  | true => simp [State.laneAnswer_of_raced hraced, eq_comm]
  | false => simp [State.laneAnswer_of_quiet hraced]

/-- Where every lane answers, the group holds the byte read in each. -/
theorem laneHolds_groupBytes {s : State} {a i : Nat} (hread : s.groupReadable a = true) (hi : i < s.cfg.width) :
    LaneHolds s a i ((s.groupBytes a).getD i 0#8) := by
  obtain ⟨b, hb⟩ := Option.isSome_iff_exists.1 ((s.groupReadable_iff a).1 hread i hi)
  rw [laneHolds_iff, State.groupBytes_getD s a hi, hb, Option.getD_some]

theorem groupReadable_of_passing {s : State} {a : Nat} (hpass : failing (.load a) s = none) :
    s.groupReadable a = true := by
  by_contra hread
  simp only [failing, if_neg hread] at hpass
  split at hpass
  · cases hpass
  · split at hpass <;> cases hpass

/-- A LOAD reads every lane, fills G with the group and completes with OK, or it leaves G and G_VALID alone
(40_group_ops.md R87). -/
theorem load_cases {s t : State} {a : Nat} (hx : exec (.load a) s = .next t) :
    (s.groupReadable a = true ∧ t = ((s.requestGroup a).fillGroup (s.groupBytes a)).complete .ok) ∨
    (t.rspCode ≠ .ok ∧ t.g = s.g ∧ t.gValid = s.gValid) := by
  rcases exec_cases hx with ⟨-, rfl⟩ | ⟨-, hpass, rfl⟩ | ⟨-, f, -, rfl⟩
  · exact .inr ⟨nofun, rfl, rfl⟩
  · exact .inl ⟨groupReadable_of_passing hpass, rfl⟩
  · rw [requested_eq]
    exact .inr ⟨nofun, rfl, rfl⟩

/-- Quiet lanes that memory holds alike are read alike (40_group_ops.md R88). -/
theorem groupBytes_of_sameMemory {s t : State} {a : Nat} (hcfg : s.cfg = t.cfg)
    (hmem : ∀ i < s.cfg.width, Memory.lookup s.mem (a + i) = Memory.lookup t.mem (a + i))
    (hs : s.SingleWriter a) (ht : t.SingleWriter a) : s.groupBytes a = t.groupBytes a := by
  unfold State.groupBytes
  rw [← hcfg]
  apply List.map_congr_left
  intro i hi
  have hi : i < s.cfg.width := List.mem_range.1 hi
  rw [State.laneAnswer_of_quiet (hs i hi), State.laneAnswer_of_quiet (ht i (hcfg ▸ hi)), hmem i hi]

end Sys2Proof.Machine

namespace Sys2Proof.Claims

open Sys2Proof.Machine

/-- Settles O24: the LOAD passes its checks, and G receives the answers of the lanes. -/
theorem loadFillsTheGroup : Obligations.LoadFillsTheGroup := by
  intro s a hs halign htop hanswers
  have hpass : failing (.load a) s = none := failing_load_of_answers halign htop hanswers
  exact ⟨s.groupBytes a, s.groupBytes_length a, fun _ => laneHolds_groupBytes (groupReadable_of_passing hpass),
    exec_of_passing hs hpass⟩

/-- Settles O29: only a LOAD that reads every lane completes with OK, and no other writes G. -/
theorem loadIsAllOrNothing : Obligations.LoadIsAllOrNothing := by
  intro s t a hx
  obtain ⟨-, hmem, -⟩ := exec_keeps hx
  refine ⟨hmem, (load_cases hx).imp_left ?_⟩
  rintro ⟨hread, rfl⟩
  exact ⟨rfl, rfl, s.groupBytes_length a, fun i => laneHolds_groupBytes hread⟩

/-- Settles O30: G after either LOAD is the group's bytes, and these are the same in both memories. -/
theorem equalMemoryLoadsAlike : Obligations.EqualMemoryLoadsAlike := by
  intro s t s' t' a hcfg hmem hquiets hquiett hs' ht' hoks hokt
  rcases load_cases hs' with ⟨-, rfl⟩ | ⟨hfails, -⟩
  · rcases load_cases ht' with ⟨-, rfl⟩ | ⟨hfailt, -⟩
    · exact groupBytes_of_sameMemory hcfg hmem hquiets hquiett
    · exact absurd hokt hfailt
  · exact absurd hoks hfails

end Sys2Proof.Claims
end

section
/-! Matching (40_group_ops.md R85, R89 to R96). A match command is a test of one byte: M receives the bitmask of the
lanes whose byte passes it, and the laws of the matches are those of their tests. -/

namespace Sys2Proof

/-! ## Bitmasks of lanes, bit by bit -/

/-- A bit is the sentinel bit of a lane, where `enc` puts its predicate, or no bitmask of lanes has it
(00_scope.md R12). -/
theorem Config.enc_bit_cases (c : Config) (k : Nat) :
    (∃ i < c.width, ∀ p, (c.enc p).getLsbD k = p i) ∨ ∀ p, (c.enc p).getLsbD k = false := by
  by_cases hk : ∃ i < c.width, k = c.sentinel i
  · obtain ⟨i, hi, rfl⟩ := hk
    exact .inl ⟨i, hi, fun p => c.getLsbD_enc_sentinel p hi⟩
  · refine .inr fun p => Bool.eq_false_iff.2 fun hset => hk ?_
    obtain ⟨i, hi, -, rfl⟩ := (c.getLsbD_enc p k).1 hset
    exact ⟨i, hi, rfl⟩

/-- The union of two bitmasks of lanes is that of the lanes of either. -/
theorem Config.enc_or (c : Config) (p q : Nat → Bool) : c.enc p ||| c.enc q = c.enc fun i => p i || q i := by
  apply BitVec.eq_of_getLsbD_eq
  intro k _
  rcases c.enc_bit_cases k with ⟨i, -, hbit⟩ | hbit <;> simp [hbit]

/-- The complement of a bitmask of lanes stays inside BITMASK_MASK (40_group_ops.md R95). -/
theorem Config.enc_not (c : Config) (p : Nat → Bool) : (c.enc fun i => !p i) = c.enc p ^^^ c.bitmaskMask := by
  apply BitVec.eq_of_getLsbD_eq
  intro k _
  rcases c.enc_bit_cases k with ⟨i, -, hbit⟩ | hbit <;> simp [Config.bitmaskMask, hbit]

/-- Bitmasks of lanes share no bit where their predicates share no lane. -/
theorem Config.enc_and_eq_zero (c : Config) {p q : Nat → Bool} (h : ∀ i < c.width, p i = true → q i = false) :
    c.enc p &&& c.enc q = 0#128 := by
  apply BitVec.eq_of_getLsbD_eq
  intro k _
  rcases c.enc_bit_cases k with ⟨i, hi, hbit⟩ | hbit
  · have hexcludes : p i = true → q i = false := h i hi
    simpa [hbit] using hexcludes
  · simp [hbit]

theorem Config.mem_lanesOf_enc (c : Config) (p : Nat → Bool) {i : Nat} (hi : i < c.width) :
    i ∈ c.lanesOf (c.enc p) ↔ p i = true := by
  rw [c.mem_lanesOf, c.getLsbD_enc_sentinel p hi, and_iff_right hi]

/-- A bitmask of lanes has one set bit for each lane (00_scope.md R12). -/
theorem Config.popcount_enc (c : Config) (p : Nat → Bool) : popcount (c.enc p) = (List.range c.width).countP p := by
  have hperm : List.Perm ((List.range 128).filter fun k => (c.enc p).getLsbD k)
      (((List.range c.width).filter p).map c.sentinel) := by
    refine (List.perm_ext_iff_of_nodup (List.nodup_range.filter _)
      ((List.nodup_range.filter _).map fun _ _ => c.sentinel_injective)).2 fun k => ?_
    simp only [List.mem_filter, List.mem_range, List.mem_map, c.getLsbD_enc]
    constructor
    · rintro ⟨-, i, hi, hp, rfl⟩
      exact ⟨i, ⟨hi, hp⟩, rfl⟩
    · rintro ⟨i, ⟨hi, hp⟩, rfl⟩
      exact ⟨c.sentinel_lt_128 hi, i, hi, hp, rfl⟩
  rw [popcount, List.countP_eq_length_filter, hperm.length_eq, List.length_map, ← List.countP_eq_length_filter]

/-- LOWEST's lane for a bitmask of lanes is the first lane that satisfies the predicate (41_bitmask_ops.md R111). -/
theorem Config.lowestLane_enc (c : Config) {p : Nat → Bool} {i : Nat} (hi : i < c.width) (hp : p i = true)
    (hfirst : ∀ j < i, p j = false) :
    Machine.laneSomeFlag (c.enc p) = true ∧ Machine.lowestLane c (c.enc p) = i := by
  have hset : (c.enc p).getLsbD (c.sentinel i) = true := (c.getLsbD_enc_sentinel p hi).trans hp
  have hne : c.enc p ≠ 0#128 := fun h0 => by simp [h0] at hset
  have hctz : ctz (c.enc p) = c.sentinel i := by
    refine ctz_eq hset fun k hk => Bool.eq_false_iff.2 fun hbit => ?_
    obtain ⟨j, -, hj, rfl⟩ := (c.getLsbD_enc p k).1 hbit
    rw [hfirst j (c.sentinel_lt_iff.1 hk)] at hj
    cases hj
  exact ⟨bne_iff_ne.2 hne, by rw [Machine.lowestLane, if_neg hne, hctz, c.laneOfBit_sentinel]⟩

/-! ## Bytes -/

/-- A legal DELETED is special and not EMPTY (40_group_ops.md R84). -/
theorem Config.deleted_of_wf {c : Config} (hwf : c.wf = true) : specialByte c.deleted = true ∧ c.deleted ≠ emptyByte := by
  simp only [Config.wf, Bool.and_eq_true, bne_iff_ne] at hwf
  obtain ⟨⟨-, hspecial⟩, hne⟩ := hwf
  exact ⟨hspecial, hne⟩

/-- On canonical bytes the top bit tells EMPTY and DELETED from the full bytes (40_group_ops.md R80, R81). -/
theorem Config.specialByte_of_canonical {c : Config} (hwf : c.wf = true) {b : Byte} (hb : c.canonicalByte b = true) :
    specialByte b = (b == emptyByte || b == c.deleted) := by
  obtain ⟨hdeleted, -⟩ := Config.deleted_of_wf hwf
  simp only [Config.canonicalByte, Bool.or_eq_true, beq_iff_eq] at hb
  rcases hb with (rfl | rfl) | hfull
  · rfl
  · simp [hdeleted]
  · have hspecial : specialByte b = false := by simpa using hfull
    have hempty : b ≠ emptyByte := by rintro rfl; cases hspecial
    have hne : b ≠ c.deleted := by rintro rfl; rw [hdeleted] at hspecial; cases hspecial
    simp [hspecial, hempty, hne]

/-- The bytes with top bit 0 are those of the 7-bit hash fragments (40_group_ops.md R82). -/
theorem not_specialByte_iff (b : Byte) : (!specialByte b) = true ↔ ∃ h : BitVec 7, b = fullByte h := by
  constructor
  · intro hb
    refine ⟨b.setWidth 7, BitVec.eq_of_getLsbD_eq fun k hk => ?_⟩
    have htop : b.getLsbD 7 = false := by simpa [specialByte] using hb
    simp only [fullByte, BitVec.getLsbD_setWidth, hk, decide_true, Bool.true_and]
    rcases Nat.lt_or_ge k 7 with h7 | h7
    · simp [h7]
    · obtain rfl : k = 7 := by omega
      exact htop
  · rintro ⟨h, rfl⟩
    simp [specialByte, fullByte]

/-- Counting each byte value in a list counts every byte of the list once. -/
theorem sum_count_bytes (bytes : List Byte) :
    ((List.range 256).map fun n => bytes.count (BitVec.ofNat 8 n)).sum = bytes.length := by
  have hcount : ∀ n ∈ Finset.range 256,
      bytes.count (BitVec.ofNat 8 n) = (bytes.map BitVec.toNat : Multiset Nat).count n := by
    intro n hn
    have hn : (BitVec.ofNat 8 n).toNat = n := Nat.mod_eq_of_lt (Finset.mem_range.1 hn)
    conv_rhs => rw [← hn, Multiset.coe_count]
    exact (List.count_map_of_injective bytes _ BitVec.toNat_injective _).symm
  have hvalues : ∀ n ∈ (bytes.map BitVec.toNat : Multiset Nat), n ∈ Finset.range 256 := by
    intro n hn
    obtain ⟨b, -, rfl⟩ := List.mem_map.1 hn
    exact Finset.mem_range.2 b.isLt
  rw [← List.sum_toFinset _ List.nodup_range, List.toFinset_range, Finset.sum_congr rfl hcount,
    Multiset.sum_count_eq_card hvalues, Multiset.coe_card, List.length_map]

end Sys2Proof

namespace Sys2Proof.Machine

open Sys2Proof.Claims

/-! ## What a match command does -/

/-- The bitmask of the lanes of G whose byte passes a test. -/
def State.maskOf (s : State) (test : Byte → Bool) : Bitmask := s.cfg.enc fun i => test (s.gLane i)

/-- `i` reads G and writes to M the lanes whose byte passes `test`. -/
structure Matches (i : Instr) (test : Byte → Bool) : Prop where
  reads : readsGroup i = true
  writes : ∀ s, written i s = s.writeM (s.maskOf test)

theorem matches_matchByte (b : Byte) : Matches (.matchByte b) (· == b) := ⟨rfl, fun _ => rfl⟩

theorem matches_matchEmpty : Matches .matchEmpty (· == emptyByte) := ⟨rfl, fun _ => rfl⟩

theorem matches_matchEod : Matches .matchEod specialByte := ⟨rfl, fun _ => rfl⟩

theorem matches_matchFull : Matches .matchFull (!specialByte ·) := ⟨rfl, fun _ => rfl⟩

/-- Every match command has a test (10_state.md R37). -/
theorem exists_matches {i : Instr} (h : IsMatch i) : ∃ test, Matches i test := by
  rcases h with ⟨b, rfl⟩ | rfl | rfl | rfl
  · exact ⟨_, matches_matchByte b⟩
  · exact ⟨_, matches_matchEmpty⟩
  · exact ⟨_, matches_matchEod⟩
  · exact ⟨_, matches_matchFull⟩

variable {i : Instr} {s : State}

/-- The one check of a command that reads G (40_group_ops.md R85). -/
theorem failing_of_readsGroup (hreads : readsGroup i = true) :
    failing i s = if s.gValid then none else some .noGroup := by
  cases i with
  | load | staticEmpty | lowest | removeLowest | any => cases hreads
  | _ => rfl

/-- A command that reads G faults NO_GROUP without one (60_exceptions.md R126). -/
theorem exec_without_group (hreads : readsGroup i = true) (hs : s.faulted = false) (hg : s.gValid = false) :
    exec i s = .next (answeredFault s 0x09#8 (encodeWord i) 0) := by
  have hfail : failing i s = some .noGroup := by rw [failing_of_readsGroup hreads, hg]; rfl
  rw [exec_of_failing hs hfail, State.raiseFault_eq_answeredFault]
  cases i with
  | load | staticEmpty | lowest | removeLowest | any => cases hreads
  | _ => rfl

/-- A command that reads G does its writes where there is one. -/
theorem exec_with_group (hreads : readsGroup i = true) (hs : s.faulted = false) (hg : s.gValid = true) :
    exec i s = .next ((written i s).complete .ok) :=
  exec_of_passing hs (by rw [failing_of_readsGroup hreads, if_pos hg])

/-- A match writes the bitmask of its test, and nothing else (40_group_ops.md R89). -/
theorem Matches.exec {test : Byte → Bool} (h : Matches i test) (hs : s.faulted = false) (hg : s.gValid = true) :
    exec i s = .next (answeredOk { s with m := s.maskOf test, mValid := true }) := by
  rw [exec_with_group h.reads hs hg, h.writes]
  rfl

/-- A command other than LOAD is decoded from its word, whatever is on CMD_ADDR (30_encoding.md R66). -/
theorem wordOf_encodeWord (hload : ∀ a, i ≠ .load a) : WordOf i (encodeWord i) :=
  fun _ => decode_encodeWord fun a ha => absurd ha (hload a)

/-- The bits a match sets are the sentinel bits of the lanes that pass its test (00_scope.md R12). -/
theorem setsExactly_maskOf (s : State) (test : Byte → Bool) :
    SetsExactly s (s.maskOf test) fun i => test (s.gLane i) = true :=
  fun k => s.cfg.getLsbD_enc _ k

/-- What a statement about one match says, from its test (40_group_ops.md R89, R91, R93, R95). -/
theorem Matches.matchResult {test : Byte → Bool} (h : Matches i test) {p : State → Nat → Prop}
    (htest : ∀ s k, test (s.gLane k) = true ↔ p s k) : MatchResult i (encodeWord i) p := by
  refine ⟨wordOf_encodeWord ?_, fun s hs => ⟨fun hg => ⟨_, h.exec hs hg, ?_⟩, exec_without_group h.reads hs⟩⟩
  · rintro a rfl
    exact absurd h.reads Bool.false_ne_true
  · have hp : (fun k => test (s.gLane k) = true) = p s := funext fun k => propext (htest s k)
    exact hp ▸ setsExactly_maskOf s test

/-- What M holds after a match. -/
theorem Matches.m_eq {test : Byte → Bool} {t : State} (h : Matches i test) (hs : s.faulted = false)
    (hg : s.gValid = true) (hx : Machine.exec i s = .next t) : t.m = s.maskOf test := by
  cases (h.exec hs hg).symm.trans hx
  rfl

/-- A match for a byte sets as many bits as there are lanes with that byte (40_group_ops.md R90). -/
theorem popcount_maskOf_eq (s : State) (b : Byte) :
    popcount (s.maskOf (· == b)) = ((List.range s.cfg.width).map s.gLane).count b := by
  rw [State.maskOf, Config.popcount_enc, List.count, List.countP_map]
  rfl

/-- LOWEST, where there is a bitmask (41_bitmask_ops.md R111). -/
theorem exec_lowest_with_mask (hs : s.faulted = false) (hm : s.mValid = true) :
    Machine.exec .lowest s = .next ((written .lowest s).complete .ok) :=
  exec_of_passing hs (if_pos hm)

end Sys2Proof.Machine

namespace Sys2Proof.Claims

open Sys2Proof.Machine

/-- Settles O33: the test is equality with the operand. -/
theorem matchByteReportsEqualLanes : Obligations.MatchByteReportsEqualLanes :=
  fun b => (matches_matchByte b).matchResult fun _ _ => beq_iff_eq

/-- Settles O34: the test is equality with EMPTY. -/
theorem matchEmptyReportsEmptyLanes : Obligations.MatchEmptyReportsEmptyLanes :=
  matches_matchEmpty.matchResult fun _ _ => beq_iff_eq

/-- Settles O35: the test is the top bit. -/
theorem matchEodReportsSpecialLanes : Obligations.MatchEodReportsSpecialLanes :=
  matches_matchEod.matchResult fun _ _ => Iff.rfl

/-- Settles O36: the test is the top bit's complement, taken lane by lane, so within the sentinel bits. -/
theorem matchFullReportsFullLanes : Obligations.MatchFullReportsFullLanes :=
  matches_matchFull.matchResult fun _ _ => by simp [TopBit, specialByte]

/-- Settles O39: a byte equals one value alone, its own, so the lanes are counted once each. -/
theorem matchBytePartitionsTheLanes : Obligations.MatchBytePartitionsTheLanes := by
  intro s r hs hg hr
  have hm : ∀ b, (r b).m = s.maskOf (· == b) := fun b => (matches_matchByte b).m_eq hs hg (hr b)
  refine ⟨fun b c hne => ?_, fun k => ?_, ?_⟩
  · rw [hm, hm]
    refine s.cfg.enc_and_eq_zero fun i _ hb => ?_
    rw [beq_iff_eq.1 hb]
    exact beq_eq_false_iff_ne.2 hne
  · simp only [hm, State.maskOf, Config.getLsbD_enc, Config.getLsbD_bitmaskMask, beq_iff_eq]
    constructor
    · rintro ⟨i, hi, hk⟩
      exact ⟨s.gLane i, i, hi, rfl, hk⟩
    · rintro ⟨-, i, hi, -, hk⟩
      exact ⟨i, hi, hk⟩
  · simp only [hm, popcount_maskOf_eq]
    rw [sum_count_bytes, List.length_map, List.length_range]

/-- Settles O40: both commands make the same test. -/
theorem matchEmptyIsMatchByteEmpty : Obligations.MatchEmptyIsMatchByteEmpty :=
  fun _ hs hg => ⟨_, matches_matchEmpty.exec hs hg, (matches_matchByte 0xFF#8).exec hs hg⟩

/-- Settles O41: on canonical bytes the top bit is the disjunction of the two equality tests. -/
theorem eodIsEmptyOrDeletedOnCanonicalGroups : Obligations.EodIsEmptyOrDeletedOnCanonicalGroups := by
  intro s hwf hs hg hcanonical
  refine ⟨_, _, _, matches_matchEod.exec hs hg, matches_matchEmpty.exec hs hg,
    (matches_matchByte s.cfg.deleted).exec hs hg, ?_⟩
  calc s.maskOf specialByte
      = s.cfg.enc fun i => s.gLane i == emptyByte || s.gLane i == s.cfg.deleted :=
        s.cfg.enc_congr fun i hi => Config.specialByte_of_canonical hwf (hcanonical i hi)
    _ = s.maskOf (· == emptyByte) ||| s.maskOf (· == s.cfg.deleted) := (s.cfg.enc_or _ _).symm

/-- Settles O42: the two tests are complements of each other, and the full bytes are those of the 7-bit fragments. -/
theorem matchFullComplementsMatchEod : Obligations.MatchFullComplementsMatchEod := by
  intro s hs hg
  refine ⟨_, _, matches_matchFull.exec hs hg, matches_matchEod.exec hs hg, s.cfg.enc_not _,
    s.cfg.enc_and_eq_zero fun i _ => by simp, (s.cfg.enc_or _ _).trans (s.cfg.enc_congr fun i _ => by simp),
    fun k => (s.cfg.getLsbD_enc _ k).trans ?_⟩
  constructor
  · rintro ⟨i, hi, hfull, hk⟩
    obtain ⟨h, hh⟩ := (not_specialByte_iff _).1 hfull
    exact ⟨h, _, (matches_matchByte _).exec hs hg, (s.cfg.getLsbD_enc _ k).2 ⟨i, hi, beq_iff_eq.2 hh, hk⟩⟩
  · rintro ⟨h, t, ht, hset⟩
    rw [(matches_matchByte _).m_eq hs hg ht] at hset
    obtain ⟨i, hi, hh, hk⟩ := (s.cfg.getLsbD_enc _ k).1 hset
    exact ⟨i, hi, (not_specialByte_iff _).2 ⟨h, beq_iff_eq.1 hh⟩, hk⟩

/-- Settles O45: a test sees the byte alone, so on the shared lanes both variants report the same ones. The first
matching lane is shared where any matching lane is, and LOWEST gives it in both. -/
theorem variantsReportTheSameLanes : Obligations.VariantsReportTheSameLanes := by
  intro s t n i _ _ hs ht hgs hgt hlanes hmatch
  obtain ⟨test, htest⟩ := exists_matches hmatch
  refine ⟨_, _, _, _, htest.exec hs hgs, htest.exec ht hgt, exec_lowest_with_mask hs rfl,
    exec_lowest_with_mask ht rfl, fun k hk => ?_, ?_⟩
  · obtain ⟨hks, hkt⟩ := lt_min_iff.1 hk
    refine (s.cfg.mem_lanesOf_enc _ hks).trans (Iff.trans ?_ (t.cfg.mem_lanesOf_enc _ hkt).symm)
    rw [hlanes k hk]
  · rintro ⟨k, hk, hreported⟩
    have hpass : test (s.gLane k) = true := (s.cfg.mem_lanesOf_enc _ (lt_min_iff.1 hk).1).1 hreported
    have hsome : ∃ j, test (s.gLane j) = true := ⟨k, hpass⟩
    have hfirst : Nat.find hsome < min s.cfg.width t.cfg.width := (Nat.find_min' hsome hpass).trans_lt hk
    have hbefore : ∀ j < Nat.find hsome, test (s.gLane j) = false :=
      fun j hj => Bool.eq_false_iff.2 (Nat.find_min hsome hj)
    obtain ⟨hws, hwt⟩ := lt_min_iff.1 hfirst
    obtain ⟨hsomes, hlows⟩ := s.cfg.lowestLane_enc hws (Nat.find_spec hsome) hbefore
    obtain ⟨hsomet, hlowt⟩ := t.cfg.lowestLane_enc (p := fun k => test (t.gLane k)) hwt
      (hlanes _ hfirst ▸ Nat.find_spec hsome) fun j hj => hlanes j (hj.trans hfirst) ▸ hbefore j hj
    exact ⟨hsomes, hsomet, hlows.trans hlowt.symm⟩

end Sys2Proof.Claims
end

section
/-! The two commands that write OUT: CONVERT with its laws, and STATIC_EMPTY with the round trip of its bytes through
memory (40_group_ops.md R97 to R100). -/

namespace Sys2Proof.Machine

open Sys2Proof.Claims

variable {s : State} {i : Nat}

/-- CONVERT makes a special lane EMPTY (40_group_ops.md R97). -/
theorem convertLane_of_topBit (h : TopBit s i) : s.convertLane i = 0xFF#8 := if_pos h

/-- CONVERT makes a full lane DELETED (40_group_ops.md R97). -/
theorem convertLane_of_full (h : ¬ TopBit s i) : s.convertLane i = s.cfg.deleted := if_neg h

/-- With a legal DELETED, CONVERT makes the special lanes EMPTY and no other (40_group_ops.md R98). -/
theorem convertLane_eq_empty_iff (hwf : s.cfg.wf = true) : s.convertLane i = 0xFF#8 ↔ TopBit s i := by
  obtain ⟨-, hne⟩ := Config.deleted_of_wf hwf
  refine ⟨fun hempty => ?_, convertLane_of_topBit⟩
  by_contra hfull
  exact hne ((convertLane_of_full hfull).symm.trans hempty)

/-- EMPTY and a legal DELETED are special (40_group_ops.md R83, R84). -/
theorem topBit_of_empty_or_deleted (hwf : s.cfg.wf = true) (h : s.gLane i = 0xFF#8 ∨ s.gLane i = s.cfg.deleted) :
    TopBit s i := by
  rw [TopBit]
  rcases h with h | h <;> rw [h]
  · decide
  · exact (Config.deleted_of_wf hwf).1

/-- OUT after CONVERT, lane by lane. -/
theorem outLane_convert (hi : i < s.cfg.width) : (written .convert s).outLane i = s.convertLane i :=
  getD_map_range _ _ hi

/-- OUT after STATIC_EMPTY, lane by lane (40_group_ops.md R99). -/
theorem outLane_staticEmpty (hi : i < s.cfg.width) : (written .staticEmpty s).outLane i = 0xFF#8 :=
  getD_map_range _ _ hi

/-- STATIC_EMPTY has no check but that of the fault state (40_group_ops.md R99). -/
theorem exec_staticEmpty (hs : s.faulted = false) :
    exec .staticEmpty s = .next ((written .staticEmpty s).complete .ok) :=
  exec_of_passing hs rfl

/-- A quiet lane of a group is the byte memory holds (20_memory.md R47). -/
theorem groupBytes_of_lookup {a : Nat} {b : Byte} (hi : i < s.cfg.width) (hquiet : s.raced (a + i) = false)
    (hlookup : Memory.lookup s.mem (a + i) = some b) : (s.groupBytes a).getD i 0#8 = b := by
  rw [s.groupBytes_getD a hi, State.laneAnswer_of_quiet hquiet, hlookup, Option.getD_some]

end Sys2Proof.Machine

namespace Sys2Proof.Claims

open Sys2Proof.Machine

/-- Settles O37: CONVERT reads G, and OUT receives each lane's conversion. -/
theorem convertRewritesTheGroup : Obligations.ConvertRewritesTheGroup := by
  refine ⟨wordOf_encodeWord (i := .convert) nofun, fun s hs => ⟨fun hg => ?_, exec_without_group rfl hs⟩⟩
  refine ⟨(written .convert s).out, by simp [written], exec_with_group rfl hs hg, fun i hi => ?_⟩
  have hlane : (written .convert s).out.getD i 0#8 = s.convertLane i := outLane_convert hi
  rw [hlane]
  exact ⟨convertLane_of_topBit, convertLane_of_full⟩

/-- Settles O38: the command passes without a group, and OUT receives EMPTY in each lane. -/
theorem staticEmptyWritesAllEmpty : Obligations.StaticEmptyWritesAllEmpty := by
  refine ⟨wordOf_encodeWord (i := .staticEmpty) nofun, fun s hs => ?_⟩
  exact ⟨(written .staticEmpty s).out, by simp [written], exec_staticEmpty hs, fun _ => outLane_staticEmpty⟩

/-- Settles O43: CONVERT decides each lane by the test of MATCH_EOD, and DELETED is special and not EMPTY. -/
theorem convertLaws : Obligations.ConvertLaws := by
  intro s hwf hs hg
  refine ⟨_, _, exec_with_group rfl hs hg, matches_matchEod.exec hs hg, fun hfull i hi => ?_, fun hspecial i hi => ?_,
    fun i hi => ?_⟩
  · exact (outLane_convert hi).trans (convertLane_of_full (hfull i hi))
  · exact (outLane_convert hi).trans (convertLane_of_topBit (topBit_of_empty_or_deleted hwf (hspecial i hi)))
  · have hlane : ((written .convert s).complete .ok).outLane i = s.convertLane i := outLane_convert hi
    rw [hlane, convertLane_eq_empty_iff hwf]
    exact (s.cfg.mem_lanesOf_enc s.specialLane hi).symm

/-- Settles O44: every lane of the loaded group is EMPTY, so every lane passes the test of MATCH_EMPTY. -/
theorem storedStaticEmptyMatchesEveryLane : Obligations.StoredStaticEmptyMatchesEveryLane := by
  intro s t u a hstatic hs hcfg hu hstored hquiet halign htop
  cases (exec_staticEmpty hs).symm.trans hstatic
  have hlookup : ∀ i < u.cfg.width, Memory.lookup u.mem (a + i) = some 0xFF#8 := fun i hi =>
    (hstored i hi).trans (congrArg some (outLane_staticEmpty (hcfg ▸ hi)))
  have hpass : failing (.load a) u = none :=
    failing_load_of_answers halign htop fun i hi => .inr (by rw [hlookup i hi]; rfl)
  have hmask : ((written (.load a) u).complete .ok).maskOf (· == emptyByte) = u.cfg.bitmaskMask :=
    u.cfg.enc_congr fun i hi => beq_iff_eq.2 (groupBytes_of_lookup hi (hquiet i hi) (hlookup i hi))
  refine ⟨_, _, exec_of_passing hu hpass, matches_matchEmpty.exec hu rfl, rfl, hmask, fun i hi => ?_⟩
  exact hmask ▸ (u.cfg.mem_lanesOf_enc _ hi).2 rfl

end Sys2Proof.Claims
end

section
/-! The bitmask commands (41_bitmask_ops.md R110 to R118). A well-formed M is the list of its lanes in ascending order:
LOWEST reports the head of that list, and REMOVE_LOWEST leaves its tail. -/

namespace Sys2Proof

/-! ## The bits of a bitmask -/

theorem ne_zero_iff_exists_bit (m : Bitmask) : m ≠ 0#128 ↔ ∃ k, m.getLsbD k = true := by
  constructor
  · exact fun hne => ⟨ctz m, (ctz_spec hne).1⟩
  · rintro ⟨k, hk⟩ rfl
    simp at hk

/-- A set bit is not the lowest exactly when a lower one is set. -/
theorem ne_ctz_iff {m : Bitmask} {k : Nat} (hk : m.getLsbD k = true) :
    k ≠ ctz m ↔ ∃ j < k, m.getLsbD j = true := by
  constructor
  · intro hne
    by_contra hnone
    push Not at hnone
    exact hne (ctz_eq hk fun j hj => Bool.eq_false_iff.2 (hnone j hj)).symm
  · rintro ⟨j, hj, hset⟩ rfl
    obtain ⟨-, hlow⟩ := ctz_spec ((ne_zero_iff_exists_bit m).2 ⟨j, hset⟩)
    simp [hlow j hj] at hset

variable (c : Config) {m : Bitmask}

/-- A well-formed bitmask lies inside BITMASK_BITS. -/
theorem Config.and_bitmaskOnes_of_good (hm : c.goodMask m = true) : m &&& c.bitmaskOnes = m := by
  apply BitVec.eq_of_getLsbD_eq
  intro k _
  rw [BitVec.getLsbD_and, c.getLsbD_bitmaskOnes]
  by_cases hk : m.getLsbD k = true
  · obtain ⟨i, hi, rfl⟩ := (c.goodMask_iff m).1 hm k hk
    simp [c.sentinel_lt hi]
  · simp [hk]

/-- On a well-formed bitmask the subtraction modulo 2^BITMASK_BITS may be made in the carrier
(41_bitmask_ops.md R113). -/
theorem Config.dropLowest_eq_and_pred (hm : c.goodMask m = true) : Machine.dropLowest c m = m &&& (m - 1#128) := by
  rw [Machine.dropLowest, BitVec.and_comm (m - 1#128), ← BitVec.and_assoc, c.and_bitmaskOnes_of_good hm]

/-! ## The lanes of a well-formed bitmask -/

theorem Config.pairwise_lanesOf (m : Bitmask) : (c.lanesOf m).Pairwise (· < ·) :=
  List.pairwise_lt_range.filter _

@[simp] theorem Config.lanesOf_zero : c.lanesOf 0#128 = [] := by
  simp [Config.lanesOf]

/-- A well-formed bitmask is the bitmask of its own lanes (00_scope.md R12, R14). -/
theorem Config.enc_of_good (hm : c.goodMask m = true) : (c.enc fun i => m.getLsbD (c.sentinel i)) = m :=
  c.eq_of_lanes (c.enc_good _) hm fun _ hi => c.getLsbD_enc_sentinel _ hi

/-- A well-formed bitmask has one set bit for each lane. -/
theorem Config.length_lanesOf (hm : c.goodMask m = true) : (c.lanesOf m).length = popcount m := by
  conv_rhs => rw [← c.enc_of_good hm, c.popcount_enc]
  rw [Config.lanesOf, List.countP_eq_length_filter]

/-- The lane LOWEST reports is set (41_bitmask_ops.md R112). -/
theorem Config.lowestLane_mem (hm : c.goodMask m = true) (hne : m ≠ 0#128) :
    Machine.lowestLane c m ∈ c.lanesOf m := by
  obtain ⟨hlt, hctz, -⟩ := c.lowestLane_spec hm hne
  exact (c.mem_lanesOf m _).2 ⟨hlt, hctz ▸ (ctz_spec hne).1⟩

/-- No set lane is below the one LOWEST reports (41_bitmask_ops.md R112). -/
theorem Config.lowestLane_le (hm : c.goodMask m = true) {i : Nat} (hi : i ∈ c.lanesOf m) :
    Machine.lowestLane c m ≤ i := by
  obtain ⟨-, hset⟩ := (c.mem_lanesOf m i).1 hi
  obtain ⟨-, -, hlow⟩ := c.lowestLane_spec hm ((ne_zero_iff_exists_bit m).2 ⟨_, hset⟩)
  by_contra hlt
  simp [hlow i (by omega)] at hset

/-- REMOVE_LOWEST keeps every lane but the one LOWEST reports (41_bitmask_ops.md R114). -/
theorem Config.mem_lanesOf_dropLowest (hm : c.goodMask m = true) (hne : m ≠ 0#128) (i : Nat) :
    i ∈ c.lanesOf (Machine.dropLowest c m) ↔ i ∈ c.lanesOf m ∧ i ≠ Machine.lowestLane c m := by
  obtain ⟨-, hctz, -⟩ := c.lowestLane_spec hm hne
  have hsame : c.sentinel i = ctz m ↔ i = Machine.lowestLane c m := by
    rw [hctz]
    exact ⟨c.sentinel_injective, congrArg c.sentinel⟩
  rw [c.mem_lanesOf, c.mem_lanesOf, c.getLsbD_dropLowest hm, ne_eq, hsame, and_assoc]

/-- The lanes in ascending order: first the one LOWEST reports, then those REMOVE_LOWEST leaves. -/
theorem Config.lanesOf_eq_cons (hm : c.goodMask m = true) (hne : m ≠ 0#128) :
    c.lanesOf m = Machine.lowestLane c m :: c.lanesOf (Machine.dropLowest c m) := by
  have hmem := c.mem_lanesOf_dropLowest hm hne
  refine (c.pairwise_lanesOf m).eq_of_mem_iff (List.pairwise_cons.2 ⟨fun i hi => ?_, c.pairwise_lanesOf _⟩) fun i => ?_
  · obtain ⟨hold, hother⟩ := (hmem i).1 hi
    exact lt_of_le_of_ne (c.lowestLane_le hm hold) hother.symm
  · rw [List.mem_cons, hmem]
    by_cases hi : i = Machine.lowestLane c m
    · simp [hi, c.lowestLane_mem hm hne]
    · simp [hi]

end Sys2Proof

namespace Sys2Proof.Machine

open Sys2Proof.Claims

variable {i : Instr} {s : State}

/-! ## What a bitmask command does -/

/-- The one check of a command that reads M (41_bitmask_ops.md R110). -/
theorem failing_of_readsMask (hreads : readsMask i = true) :
    failing i s = if s.mValid then none else some .noMask := by
  cases i with
  | lowest | removeLowest | any => rfl
  | _ => cases hreads

/-- A command that reads M faults NO_MASK without one (60_exceptions.md R126). -/
theorem exec_without_mask (hreads : readsMask i = true) (hs : s.faulted = false) (hm : s.mValid = false) :
    exec i s = .next (answeredFault s 0x0B#8 (encodeWord i) 0) := by
  have hfail : failing i s = some .noMask := by rw [failing_of_readsMask hreads, hm]; rfl
  rw [exec_of_failing hs hfail, State.raiseFault_eq_answeredFault]
  cases i with
  | lowest | removeLowest | any => rfl
  | _ => cases hreads

/-- A command that reads M does its writes where there is one. -/
theorem exec_with_mask (hreads : readsMask i = true) (hs : s.faulted = false) (hm : s.mValid = true) :
    exec i s = .next ((written i s).complete .ok) :=
  exec_of_passing hs (by rw [failing_of_readsMask hreads, if_pos hm])

/-- LOWEST with its two results named (41_bitmask_ops.md R111). -/
theorem exec_lowest_eq (hs : s.faulted = false) (hm : s.mValid = true) {isSome : Bool} {lane : Nat}
    (hsome : laneSomeFlag s.m = isSome) (hlane : lowestLane s.cfg s.m = lane) :
    exec .lowest s = .next (answeredOk { s with laneSome := isSome, lane := lane, laneValid := true }) := by
  rw [exec_lowest_with_mask hs hm, ← hsome, ← hlane]
  rfl

/-- REMOVE_LOWEST writes M alone (41_bitmask_ops.md R113). -/
theorem exec_removeLowest_eq (hs : s.faulted = false) (hm : s.mValid = true) :
    exec .removeLowest s = .next (answeredOk { s with m := dropLowest s.cfg s.m }) := by
  rw [exec_with_mask rfl hs hm]
  exact congrArg _ (wroteOnlyItsSet_of_passing (i := .removeLowest) (if_pos hm))

theorem laneSomeFlag_iff (m : Bitmask) : laneSomeFlag m = true ↔ m ≠ 0#128 := bne_iff_ne

/-- ANY tests for a set bit (41_bitmask_ops.md R115). -/
theorem anyFlag_iff (m : Bitmask) : anyFlag m = true ↔ ∃ k, m.getLsbD k = true :=
  bne_iff_ne.trans (ne_zero_iff_exists_bit m)

/-- With a bitmask, no bitmask command changes what a match goes by (41_bitmask_ops.md R118). -/
theorem exec_keepsGroup {t : State} (hx : exec i s = .next t) (hreads : readsMask i = true) (hs : s.faulted = false)
    (hm : s.mValid = true) : t.cfg = s.cfg ∧ t.g = s.g ∧ t.gValid = s.gValid ∧ t.faulted = s.faulted := by
  cases (exec_with_mask hreads hs hm).symm.trans hx
  cases i with
  | lowest | removeLowest | any => exact ⟨rfl, rfl, rfl, rfl⟩
  | _ => cases hreads

/-- The lanes of a match are those of any state with the same group (40_group_ops.md R85). -/
theorem maskOf_congr {t : State} (hcfg : s.cfg = t.cfg) (hg : s.g = t.g) (test : Byte → Bool) :
    s.maskOf test = t.maskOf test := by
  simp only [State.maskOf, State.gLane, hcfg, hg]

/-! ## The iteration -/

/-- On M = 0 the loop ends (41_bitmask_ops.md R117). -/
theorem nextLane_of_zero (hs : s.faulted = false) (hm : s.mValid = true) (h0 : s.m = 0#128) : nextLane s = none := by
  rw [nextLane, exec_lowest_eq hs hm (isSome := false) (by rw [h0]; rfl) rfl]
  rfl

/-- A round that consumes a lane is LOWEST and then REMOVE_LOWEST (30_encoding.md R77). -/
theorem nextLane_of_exec {t u : State} (hlowest : exec .lowest s = .next t) (hsome : t.laneSome = true)
    (hremove : exec .removeLowest t = .next u) : nextLane s = some (t.lane, u) := by
  simp only [nextLane, hlowest, hsome, hremove, if_true]

/-- A round on M ≠ 0 consumes the lowest lane and leaves the other lanes in M (41_bitmask_ops.md R117). -/
theorem nextLane_of_ne_zero (hs : s.faulted = false) (hm : s.mValid = true) (hne : s.m ≠ 0#128) :
    ∃ t, nextLane s = some (lowestLane s.cfg s.m, t) ∧ t.cfg = s.cfg ∧ t.m = dropLowest s.cfg s.m ∧
      t.faulted = false ∧ t.mValid = true := by
  have hlowest := exec_lowest_eq hs hm ((laneSomeFlag_iff s.m).2 hne) rfl
  exact ⟨_, nextLane_of_exec hlowest rfl (exec_removeLowest_eq hs hm), rfl, rfl, hs, hm⟩

end Sys2Proof.Machine

namespace Sys2Proof.Claims

open Sys2Proof.Machine

/-- Settles O46: the given bit is `ctz(M)`, and its lane is LOWEST's result. -/
theorem lowestReportsTheLowestLane : Obligations.LowestReportsTheLowestLane := by
  refine ⟨wordOf_encodeWord (i := .lowest) nofun, fun s hs =>
    ⟨fun hm h0 => ?_, fun hm p hp hlow => ?_, exec_without_mask rfl hs⟩⟩
  · exact exec_lowest_eq hs hm (by rw [h0]; rfl) (by rw [h0]; rfl)
  · have hne : s.m ≠ 0#128 := (ne_zero_iff_exists_bit s.m).2 ⟨p, hp⟩
    refine exec_lowest_eq hs hm ((laneSomeFlag_iff s.m).2 hne) ?_
    rw [lowestLane, if_neg hne, ctz_eq hp hlow, Config.laneOfBit]

/-- Settles O47: LANE_SOME tells that M is not 0, and then LANE is the first of its lanes. -/
theorem reportedLaneIsTheFirstMatch : Obligations.ReportedLaneIsTheFirstMatch := by
  intro s t hgood hs hm hx hsome
  cases (exec_lowest_with_mask hs hm).symm.trans hx
  have hmem := s.cfg.lowestLane_mem hgood ((laneSomeFlag_iff s.m).1 hsome)
  exact ⟨lowestLane_lt hgood, hmem, fun _ => s.cfg.lowestLane_le hgood⟩

/-- Settles O48: the bits kept are those that are not the lowest, so those with a set bit below them. -/
theorem removeLowestClearsTheLowestBit : Obligations.RemoveLowestClearsTheLowestBit := by
  refine ⟨wordOf_encodeWord (i := .removeLowest) nofun, fun s hgood hs => ⟨fun hm => ?_, exec_without_mask rfl hs⟩⟩
  refine ⟨_, exec_removeLowest_eq hs hm, s.cfg.dropLowest_eq_and_pred hgood, fun h0 => ?_,
    s.cfg.dropLowest_good hgood, fun k => ?_⟩
  · rw [h0, dropLowest, BitVec.zero_and]
  · exact (s.cfg.getLsbD_dropLowest hgood k).trans (and_congr_right ne_ctz_iff)

/-- Settles O49: the lanes of M are the reported lane and the lanes left, and a well-formed M has one bit for each. -/
theorem removeLowestDropsTheReportedLane : Obligations.RemoveLowestDropsTheReportedLane := by
  intro s hgood hs hm hne
  refine ⟨_, _, exec_lowest_with_mask hs hm, exec_removeLowest_eq hs hm, ?_,
    s.cfg.mem_lanesOf_dropLowest hgood hne⟩
  calc popcount (dropLowest s.cfg s.m) + 1
      = (s.cfg.lanesOf (dropLowest s.cfg s.m)).length + 1 := by
        rw [s.cfg.length_lanesOf (s.cfg.dropLowest_good hgood)]
    _ = (s.cfg.lanesOf s.m).length := by rw [s.cfg.lanesOf_eq_cons hgood hne, List.length_cons]
    _ = popcount s.m := s.cfg.length_lanesOf hgood

/-- Settles O50: ANYF is the test for a set bit. -/
theorem anyTestsForALane : Obligations.AnyTestsForALane :=
  ⟨wordOf_encodeWord (i := .any) nofun, fun s hs =>
    ⟨fun hm => ⟨_, exec_with_mask rfl hs hm, anyFlag_iff s.m⟩, exec_without_mask rfl hs⟩⟩

/-- Settles O51: both flags are the test `M ≠ 0`. -/
theorem anyAgreesWithLowest : Obligations.AnyAgreesWithLowest :=
  fun _ hs hm => ⟨_, _, exec_with_mask rfl hs hm, exec_lowest_with_mask hs hm, rfl⟩

/-- A round consumes the head of the list of lanes and leaves its tail, so n rounds consume the first n
(41_bitmask_ops.md R117). -/
theorem iterateLanes_eq_take (n : Nat) {s : State} (hgood : s.cfg.goodMask s.m = true) (hs : s.faulted = false)
    (hm : s.mValid = true) : iterateLanes n s = (s.cfg.lanesOf s.m).take n := by
  induction n generalizing s with
  | zero => rfl
  | succ n ih =>
    by_cases h0 : s.m = 0#128
    · rw [iterateLanes, nextLane_of_zero hs hm h0, h0, Config.lanesOf_zero, List.take_nil]
    · obtain ⟨t, hnext, hcfg, hmask, hst, hmt⟩ := nextLane_of_ne_zero hs hm h0
      have hgoodt : t.cfg.goodMask t.m = true := hcfg ▸ hmask ▸ s.cfg.dropLowest_good hgood
      rw [iterateLanes, hnext, s.cfg.lanesOf_eq_cons hgood h0, List.take_succ_cons, ← hmask, ← hcfg,
        ← ih hgoodt hst hmt]

/-- Settles O52: from the list form of the iteration. -/
theorem iterationYieldsTheLanesInOrder : Obligations.IterationYieldsTheLanesInOrder :=
  fun s hgood hs hm =>
    ⟨fun n => iterateLanes_eq_take n hgood hs hm, s.cfg.length_lanesOf hgood, s.cfg.pairwise_lanesOf s.m⟩

/-- Settles O53: the match finds the group it found before. -/
theorem reissuedMatchRebuildsTheBitmask : Obligations.ReissuedMatchRebuildsTheBitmask := by
  intro s t u j i hs hg hmatch hj hi hju
  obtain ⟨test, htest⟩ := exists_matches hmatch
  have hreads : readsMask j = true := by rcases hj with rfl | rfl | rfl <;> rfl
  cases (htest.exec hs hg).symm.trans hi
  obtain ⟨hcfg, hgroup, hvalid, hfaulted⟩ := exec_keepsGroup hju hreads hs rfl
  exact ⟨hgroup, _, htest.exec (hfaulted.trans hs) (hvalid.trans hg), maskOf_congr hcfg hgroup test⟩

end Sys2Proof.Claims
end

section
/-! Faults and reset (60_exceptions.md). An accepted command is REJECTED in the fault state, else it takes the first check
of R130 that applies, or completes with OK; the fault state keeps every register until RST, and RST leaves none. -/

namespace Sys2Proof.Machine

open Sys2Proof.Claims

variable {s : State} {word : CmdWord} {addr : Nat} {during : List Host.Cell} {rest : List HostEvent} {i : Instr}
  {f : FaultCode}

/-! ## The first check that applies -/

/-- The one check of a command other than LOAD (60_exceptions.md R130). -/
theorem failing_of_not_load (hload : ∀ a, i ≠ .load a) (s : State) :
    failing i s = if readsGroup i && !s.gValid then some .noGroup
      else if readsMask i && !s.mValid then some .noMask else none := by
  cases i with
  | load a => exact absurd rfl (hload a)
  | staticEmpty => rfl
  | lowest | removeLowest | any => cases hm : s.mValid <;> simp [failing, readsGroup, readsMask, hm]
  | _ => cases hg : s.gValid <;> simp [failing, readsGroup, readsMask, hg]

/-- The first check of a legal word other than LOAD's is the one check of its command. -/
theorem failing_of_firstFault_not_load {r : Option FaultCode} (hload : ∀ a, i ≠ .load a) (hd : decode word addr = .ok i)
    (h : FirstFault s word addr during r) : failing i (running s during rest) = r := by
  rw [failing_of_not_load hload, running_gValid, running_mValid]
  cases i with
  | load a => exact absurd rfl (hload a)
  | _ =>
    simp only [FirstFault, hd] at h
    split_ifs at h ⊢ <;> exact h.symm

/-- The first check of a LOAD is that of its address, and then that of its bytes (60_exceptions.md R130). -/
theorem failing_of_firstFault_load {r : Option FaultCode} {a : Nat} (hd : decode word addr = .ok (.load a))
    (h : FirstFault s word addr during r) : failing (.load a) (running s during rest) = r := by
  simp only [FirstFault, hd] at h
  split at h
  · next halign => exact h ▸ failing_load_of_misaligned halign
  · next halign =>
    have halign : a % s.cfg.alignWidth = 0 := not_not.1 halign
    split at h
    · next htop => exact h ▸ failing_load_of_pastTop halign htop
    · next htop =>
      have htop : a + s.cfg.width ≤ 2 ^ s.cfg.addrWidth := Nat.not_lt.1 htop
      rcases h with ⟨rfl, k, hk, herror⟩ | ⟨rfl, hanswers⟩
      · exact failing_load_of_unanswered halign htop hk herror
      · exact failing_load_of_answers halign htop hanswers

/-- The first check of a legal word is the one its command fails when it runs. -/
theorem failing_of_firstFault {r : Option FaultCode} (hd : decode word addr = .ok i)
    (h : FirstFault s word addr during r) : failing i (running s during rest) = r := by
  cases i with
  | load a => exact failing_of_firstFault_load hd h
  | _ => exact failing_of_firstFault_not_load nofun hd h

theorem firstFault_of_illegal {r : Option FaultCode} {e : DecodeError} (hd : decode word addr = .error e)
    (h : FirstFault s word addr during r) : r = some .illegal := by
  simpa only [FirstFault, hd] using h

/-! ## The record of a fault -/

/-- LOAD's own faults (60_exceptions.md R126). -/
theorem fault_of_failing_load {a : Nat} (hfail : failing (.load a) s = some f) : f = .misaligned ∨ f = .bus := by
  simp only [failing] at hfail
  split_ifs at hfail <;> cases hfail
  exacts [.inl rfl, .inr rfl, .inr rfl]

/-- The faults of the other commands (60_exceptions.md R126). -/
theorem fault_of_failing_not_load (hfail : failing i s = some f) (hload : ∀ a, i ≠ .load a) :
    f = .noGroup ∨ f = .noMask := by
  rw [failing_of_not_load hload] at hfail
  split_ifs at hfail <;> cases hfail
  exacts [.inl rfl, .inr rfl]

/-- FADDR receives CMD_ADDR for the two memory faults, which are LOAD's alone, else 0 (60_exceptions.md R126). -/
theorem recordedAddr_of_failing (hd : decode word addr = .ok i) (hfail : failing i s = some f) :
    recordedAddr i = faddrOf addr f := by
  cases i with
  | load a =>
    obtain ⟨-, -, -, hoperand⟩ := decode_eq_ok hd
    rcases fault_of_failing_load hfail with rfl | rfl <;> exact hoperand a rfl
  | _ => rcases fault_of_failing_not_load hfail nofun with rfl | rfl <;> rfl

/-- A LOAD that fails before its bytes are read has requested none (60_exceptions.md R130). -/
theorem requested_of_failing_early (hd : decode word addr = .ok i) (hfail : failing i s = some f)
    (hearly : f ≠ .bus ∨ 2 ^ s.cfg.addrWidth < addr + s.cfg.width) : requested i s = s := by
  cases i with
  | load a =>
    obtain ⟨-, -, -, hoperand⟩ := decode_eq_ok hd
    rw [← hoperand a rfl] at hearly
    apply requested_load_of_badAddress
    by_contra hgood
    obtain ⟨halign, htop⟩ := not_or.1 hgood
    rw [failing_load_of_inRange (not_not.1 halign) (Nat.not_lt.1 htop)] at hfail
    split_ifs at hfail
    cases hfail
    exact hearly.elim (absurd rfl) htop
  | _ => rfl

/-! ## The answer to an accepted command -/

/-- An accepted legal command is run by `exec` in its running state (10_state.md R21). -/
theorem step_of_accepts (h : Accepts s word addr during rest) (hd : decode word addr = .ok i) :
    step s = andThen (exec i (running s during rest)) State.closeWindow :=
  stepRunsTheDecodedCommand s word addr during rest i h hd

/-- In the fault state an accepted command is REJECTED, legal or not (60_exceptions.md R129). -/
theorem step_of_accepts_faulted (h : Accepts s word addr during rest) (hs : s.faulted = true) :
    step s = .next (answeredRejected (afterWindow s during rest)) := by
  have hrunning : (running s during rest).faulted = true := hs
  cases hd : decode word addr with
  | error e =>
    obtain ⟨hhost, hready, hfits⟩ := h
    rw [step_of_illegal hhost hready (State.fits_of_eventFits hfits).1 hd, State.illegalCommand,
      State.unlessFaulted_of_faulted hrunning]
    rfl
  | ok i =>
    rw [step_of_accepts h hd, exec_of_faulted hrunning]
    rfl

/-- Outside the fault state the first check that applies is taken as the fault (60_exceptions.md R127, R130). -/
theorem step_of_firstFault (h : Accepts s word addr during rest) (hs : s.faulted = false)
    (hfirst : FirstFault s word addr during (some f)) :
    ∃ reqs, step s = .next
        (answeredFault { afterWindow s during rest with memReqs := reqs } (statusOf f) word (faddrOf addr f)) ∧
      (f ≠ .bus ∨ 2 ^ s.cfg.addrWidth < addr + s.cfg.width → reqs = []) := by
  cases hd : decode word addr with
  | error e =>
    cases firstFault_of_illegal hd hfirst
    obtain ⟨-, -, hillegal⟩ := illegalWordsAreExactlyThese
    exact ⟨[], hillegal s word addr during rest e h hs hd, fun _ => rfl⟩
  | ok i =>
    have hrunning : (running s during rest).faulted = false := hs
    have hfail : failing i (running s during rest) = some f := failing_of_firstFault hd hfirst
    refine ⟨(requested i (running s during rest)).memReqs, ?_, fun hearly => ?_⟩
    · rw [step_of_accepts h hd, exec_of_failing hrunning hfail, requested_eq, encodeWord_of_decode hd,
        recordedAddr_of_failing hd hfail, State.raiseFault_eq_answeredFault]
      rfl
    · rw [requested_of_failing_early hd hfail hearly, running_memReqs]

/-- A command that passes its checks leaves the fault record alone (10_state.md R37). -/
theorem written_keeps_record (i : Instr) (s : State) :
    (written i s).status = s.status ∧ (written i s).fcmd = s.fcmd ∧ (written i s).faddr = s.faddr := by
  cases i <;> exact ⟨rfl, rfl, rfl⟩

/-- Outside the fault state a command to which no check applies completes with OK (10_state.md R35). -/
theorem step_of_no_firstFault (h : Accepts s word addr during rest) (hs : s.faulted = false)
    (hfirst : FirstFault s word addr during none) :
    ∃ t, step s = .next t ∧ t.rspValid = true ∧ t.busy = false ∧ t.rspCode = .ok ∧
      t.status = s.status ∧ t.fcmd = s.fcmd ∧ t.faddr = s.faddr := by
  cases hd : decode word addr with
  | error e => cases firstFault_of_illegal hd hfirst
  | ok i =>
    have hrunning : (running s during rest).faulted = false := hs
    have hpass : failing i (running s during rest) = none := failing_of_firstFault hd hfirst
    refine ⟨((written i (running s during rest)).complete .ok).closeWindow, ?_, rfl, rfl, rfl,
      written_keeps_record i (running s during rest)⟩
    rw [step_of_accepts h hd, exec_of_passing hrunning hpass, andThen]

/-! ## Reset -/

/-- RST asserted in the window of an accepted command abandons it (60_exceptions.md R131). -/
theorem step_of_abort (hhost : s.host = .command word addr during true :: rest) (hready : s.cmdReady = true)
    (hduring : ∀ w ∈ during, w.1 < 2 ^ s.cfg.addrWidth) :
    step s = .next (State.abandon { s with host := rest } during) := by
  have hinside : State.firstOutside { s with host := rest } during = none :=
    (State.firstOutside_eq_none _ _).2 hduring
  have hready' : State.cmdReady { s with host := rest } = true := hready
  simp only [step, hhost, presentCommand, hinside, hready']
  rfl

/-! ## The fault state -/

/-- The registers of 10_state.md R23 to R29 with their valid bits: the state with everything else blanked. -/
def State.registers (s : State) : State :=
  { s with
    busy := false, rst := false, rspValid := false, rspCode := .ok, memReqs := [], mem := [], host := [], window := [] }

/-- A step from the fault state keeps every register, or is one in which the host asserts RST (60_exceptions.md R133). -/
theorem step_of_faulted {t : State} (hs : s.faulted = true) (hstep : step s = .next t) :
    t.registers = s.registers ∨
    (∃ u : State, t = u.assertRst) ∧ ((∃ rest, s.host = .rst true :: rest) ∨
      ∃ word addr during rest, s.host = .command word addr during true :: rest) := by
  rcases step_cases hstep with ⟨-, rfl⟩ | ⟨a, b, rest, -, -, rfl⟩ | ⟨a, rest, -, -, rfl⟩ | ⟨level, rest, hhost, rfl⟩ |
    ⟨word, addr, during, abort, rest, hhost, -, hend⟩
  · exact .inl rfl
  · exact .inl rfl
  · exact .inl rfl
  · cases level with
    | true => exact .inr ⟨⟨_, rfl⟩, .inl ⟨rest, hhost⟩⟩
    | false => exact .inl rfl
  · have hrunning : (running s during rest).faulted = true := hs
    rcases hend with ⟨-, rfl⟩ | ⟨-, rfl, rfl⟩ | ⟨-, -, -, rfl⟩ | ⟨-, -, i, u, -, -, hx, rfl⟩
    · cases abort with
      | true => exact .inr ⟨⟨_, rfl⟩, .inr ⟨word, addr, during, rest, hhost⟩⟩
      | false => exact .inl rfl
    · exact .inr ⟨⟨_, rfl⟩, .inr ⟨word, addr, during, rest, hhost⟩⟩
    · rw [State.illegalCommand, State.unlessFaulted_of_faulted hrunning]
      exact .inl rfl
    · cases (exec_of_faulted hrunning i).symm.trans hx
      exact .inl rfl

end Sys2Proof.Machine

namespace Sys2Proof.Claims

open Sys2Proof.Machine

/-- Settles O8: a case for each of the three ways an accepted command ends. -/
theorem firstCheckDecidesTheResponse : Obligations.FirstCheckDecidesTheResponse := by
  intro s word addr during rest r haccepts hfirst
  cases hs : s.faulted with
  | true => exact ⟨_, step_of_accepts_faulted haccepts hs, rfl, rfl, fun _ => rfl, nofun, nofun⟩
  | false =>
    cases r with
    | some f =>
      obtain ⟨reqs, hstep, hearly⟩ := step_of_firstFault haccepts hs hfirst
      refine ⟨_, hstep, rfl, rfl, nofun, fun _ g hg => ?_, nofun⟩
      cases hg
      exact ⟨rfl, hearly⟩
    | none =>
      obtain ⟨t, hstep, hvalid, hbusy, hrecord⟩ := step_of_no_firstFault haccepts hs hfirst
      exact ⟨t, hstep, hvalid, hbusy, nofun, nofun, fun _ _ => hrecord⟩

/-- Settles O9: the registers of `s` are read off `t` one by one, or `t` is a reset state. -/
theorem faultStateLastsUntilReset : Obligations.FaultStateLastsUntilReset := by
  intro s t hs hstep
  have hrejected : (∃ word addr during rest, Accepts s word addr during rest) →
      t.rspValid = true ∧ t.rspCode = .rejected := by
    rintro ⟨word, addr, during, rest, haccepts⟩
    cases (step_of_accepts_faulted haccepts hs).symm.trans hstep
    exact ⟨rfl, rfl⟩
  rcases step_of_faulted hs hstep with hkeep | ⟨⟨u, rfl⟩, hhost⟩
  · have hsame {α : Type} (field : State → α) : field t.registers = field s.registers := by rw [hkeep]
    have hfaulted : t.faulted = s.faulted := hsame State.faulted
    exact .inl ⟨hfaulted.trans hs, hsame State.status, hsame State.fcmd, hsame State.faddr, hsame State.g,
      hsame State.gValid, hsame State.m, hsame State.mValid, hsame State.lane, hsame State.laneSome,
      hsame State.laneValid, hsame State.anyf, hsame State.anyValid, hsame State.out, hsame State.outValid, hrejected⟩
  · exact .inr ⟨rfl, rfl, rfl, rfl, rfl, rfl, rfl, rfl, rfl, rfl, hhost⟩

/-- Settles O10: RST between commands, in a command's window, and released. -/
theorem rstReachesTheResetState : Obligations.RstReachesTheResetState := by
  intro s rest
  refine ⟨fun hhost => ?_, fun word addr during hhost hready hduring => ?_, fun hhost => ?_⟩
  · rw [step, hhost]
    rfl
  · have hinside : ∀ w ∈ during, w.1 < 2 ^ s.cfg.addrWidth :=
      fun w hw => of_decide_eq_true (List.all_eq_true.1 hduring w hw)
    rw [step_of_abort hhost hready hinside]
    rfl
  · refine ⟨_, by rw [step, hhost]; rfl, rfl, fun hbusy => ?_⟩
    simp [State.cmdReady, hbusy]

end Sys2Proof.Claims
end

section
/-! What every step keeps and what the host's duties buy (70_reset_and_hazards.md): the parameters, the reset values while
RST is asserted, and the LOADs of a padded table. -/

namespace Sys2Proof.Machine

open Sys2Proof.Claims

variable {s : State}

/-! ## The parameters and RST -/

/-- An illegal word reaches neither the parameters nor RST (60_exceptions.md R127, R129). -/
theorem State.illegalCommand_keeps (s : State) (word : CmdWord) :
    (s.illegalCommand word).cfg = s.cfg ∧ (s.illegalCommand word).rst = s.rst := by
  rcases s.illegalCommand_cases word with he | he <;> rw [he] <;> exact ⟨rfl, rfl⟩

/-- No action of the host and no command writes the parameters (70_reset_and_hazards.md R155). -/
theorem step_keeps_cfg {t : State} (hstep : step s = .next t) : t.cfg = s.cfg := by
  rcases step_cases hstep with ⟨-, rfl⟩ | ⟨a, b, rest, -, -, rfl⟩ | ⟨a, rest, -, -, rfl⟩ | ⟨level, rest, -, rfl⟩ |
    ⟨word, addr, during, abort, rest, -, -, hend⟩
  · rfl
  · rfl
  · rfl
  · cases level <;> rfl
  · rcases hend with ⟨-, rfl⟩ | ⟨-, -, rfl⟩ | ⟨-, -, -, rfl⟩ | ⟨-, -, i, u, -, -, hx, rfl⟩
    · cases abort <;> rfl
    · rfl
    · exact ((running s during rest).illegalCommand_keeps word).1
    · exact (exec_keeps hx).1

/-! ## The reset state -/

/-- A command is accepted only while RST is released (10_state.md R34). -/
theorem State.rst_of_cmdReady (h : s.cmdReady = true) : s.rst = false := by
  obtain ⟨hrst, -⟩ : s.rst = false ∧ s.busy = false := by simpa [State.cmdReady] using h
  exact hrst

theorem State.assertRst_heldInReset (s : State) : s.assertRst.HeldInReset := fun _ => s.assertRst_resets.symm

theorem State.heldInReset_of_released (h : s.rst = false) : s.HeldInReset :=
  fun hrst => absurd hrst (Bool.eq_false_iff.1 h)

/-- The memory and the host's list are no registers: a change to them alone keeps the reset values. -/
theorem State.HeldInReset.withHostAndMem (h : s.HeldInReset) (rest : List HostEvent) (mem : List Host.Cell) :
    State.HeldInReset { s with host := rest, mem := mem } :=
  fun hrst => congrArg (fun u : State => { u with host := rest, mem := mem }) (h hrst)

/-! ## A table's allocation -/

/-- The group of a table position ends inside the address space, with the allocation (R156, 20_memory.md R51). -/
theorem State.TableLoad.inSpace {base slots a : Nat} (hload : s.TableLoad base slots a)
    (halloc : s.Allocated base slots) : a + s.cfg.width ≤ 2 ^ s.cfg.addrWidth := by
  obtain ⟨-, -, hend⟩ := hload
  exact hend.trans (by simpa only [Nat.add_assoc] using halloc.inSpace)

/-- Every byte of the group of a table position lies in the allocation, so it is readable (R156). -/
theorem State.TableLoad.isSome_lookup {base slots a i : Nat} (hload : s.TableLoad base slots a)
    (halloc : s.Allocated base slots) (hi : i < s.cfg.width) : (Memory.lookup s.mem (a + i)).isSome = true := by
  obtain ⟨-, hbase, hend⟩ := hload
  have haddr : a + i = base + (a - base + i) := by omega
  rw [haddr]
  exact halloc.readable _ (by omega)

theorem laneHolds_of_quiet {a i : Nat} {b : Byte} (hquiet : s.raced (a + i) = false) :
    LaneHolds s a i b ↔ Memory.lookup s.mem (a + i) = some b := by
  rw [laneHolds_iff, State.laneAnswer_of_quiet hquiet]

end Sys2Proof.Machine

namespace Sys2Proof.Claims

open Sys2Proof.Machine

/-- Settles O16: a step asserts RST, or touches only the memory and the host's list, or ends with RST released; a command
is accepted only in the last case. -/
theorem registersAreHeldInReset : Obligations.RegistersAreHeldInReset := by
  intro s t hheld hstep
  rcases step_cases hstep with ⟨-, rfl⟩ | ⟨a, b, rest, -, -, rfl⟩ | ⟨a, rest, -, -, rfl⟩ | ⟨level, rest, -, rfl⟩ |
    ⟨word, addr, during, abort, rest, -, -, hend⟩
  · exact hheld
  · exact hheld.withHostAndMem rest _
  · exact hheld.withHostAndMem rest _
  · cases level with
    | true => exact State.assertRst_heldInReset _
    | false => exact State.heldInReset_of_released rfl
  · rcases hend with ⟨-, rfl⟩ | ⟨-, -, rfl⟩ | ⟨hready, -, -, rfl⟩ | ⟨hready, -, i, u, -, -, hx, rfl⟩
    · cases abort with
      | true => exact State.assertRst_heldInReset _
      | false => exact hheld.withHostAndMem rest _
    · exact State.assertRst_heldInReset _
    · obtain ⟨-, hrst⟩ := (running s during rest).illegalCommand_keeps word
      exact State.heldInReset_of_released (hrst.trans (State.rst_of_cmdReady (s := s) hready))
    · obtain ⟨-, -, hrst, -⟩ := exec_keeps hx
      exact State.heldInReset_of_released (hrst.trans (State.rst_of_cmdReady (s := s) hready))

/-- Settles O17: the CFG outputs are a function of the parameters, which no step writes. -/
theorem parametersNeverChange : Obligations.ParametersNeverChange :=
  fun _ _ hstep => ⟨step_keeps_cfg hstep, congrArg Config.ports (step_keeps_cfg hstep)⟩

/-- Settles O32: the position is aligned, its group lies in the allocation and so in the address space, and every byte of
it answers; with no write in the window, each lane is what memory holds. -/
theorem tableLoadsNeverFault : Obligations.TableLoadsNeverFault := by
  intro s base slots a hs halloc hload hquiet
  obtain ⟨bytes, -, hholds, hx⟩ := loadFillsTheGroup s a hs hload.1 (hload.inSpace halloc)
    fun i hi => .inr (hload.isSome_lookup halloc hi)
  exact ⟨_, hx, rfl, rfl, fun i hi => (laneHolds_of_quiet (hquiet i hi)).1 (hholds i hi)⟩

end Sys2Proof.Claims
end
